-- ==== Sys2Proof/Word.lean ====
section
/-! DEFINITION. The bit-vector types of the block: bytes held by the FIFO, the 16-bit data field of an
op word, and the 32-bit op and result words (00_scope.md R10, 30_encoding.md R90, R93). -/
namespace Sys2Proof

/-- One FIFO entry, `DATA_W = 8` bits (00_scope.md R5). -/
abbrev Byte := BitVec 8

/-- The `data[15:0]` field of an op word (30_encoding.md R90). -/
abbrev Half := BitVec 16

/-- An operation word or a result word (00_scope.md R10). -/
abbrev Word := BitVec 32

end Sys2Proof
end

