-- ==== Sys2Proof/Config.lean ====
section
/-! DEFINITION. Names fixed by the spec (ports, domains, channels, agents, events), the implementation
parameters of 00_scope.md R5, and the free values, which are constants without a body. -/
namespace Sys2Proof

/-- The two operation ports (00_scope.md R10). -/
inductive Port where
  /-- The W port, driven by the producer. -/
  | w
  /-- The R port, driven by the controller. -/
  | r
deriving DecidableEq, Repr, Inhabited

/-- The two clock domains (00_scope.md R9). -/
inductive Domain where
  | write
  | read
deriving DecidableEq, Repr, Inhabited

/-- The PWM channels by id (41_pwm.md R142). The reserved id 3 is no channel. -/
inductive Channel where
  /-- id 0, grant status indicator -/
  | ch0
  /-- id 1, deny status indicator -/
  | ch1
  /-- id 2, tone-enable line -/
  | ch2
deriving DecidableEq, Repr, Inhabited

/-- When the tone generator samples the pitch register (00_scope.md R5, 42_tone.md R162). -/
inductive PitchMode where
  | latch
  | live
deriving DecidableEq, Repr, Inhabited

/-- The agents (00_scope.md R12). -/
inductive Agent where
  | producer
  | controller
  | syncW2R
  | syncR2W
  | pwmTb
  | toneTmr
  | env
deriving DecidableEq, Repr, Inhabited

/-- One step of one agent, as the outside schedules it (00_scope.md R12, R13): an op word presented at
a port, one of the four internal steps, or the environment's reset. -/
inductive Event where
  /-- An op word presented at a port, by `PRODUCER` (W) or `CONTROLLER` (R). -/
  | op (port : Port) (word : Word)
  /-- `SYNC_W2R` (40_fifo.md R120). -/
  | syncW2R
  /-- `SYNC_R2W` (40_fifo.md R121). -/
  | syncR2W
  /-- `PWM_TB`, one `pwm_tick` pulse (41_pwm.md R149). -/
  | pwmTb
  /-- `TONE_TMR`, one `tone_tick` pulse (42_tone.md R169). -/
  | toneTmr
  /-- The reset event, both domains together (70_reset_and_hazards.md R200). -/
  | reset
  /-- Reset applied to one domain only (70_reset_and_hazards.md R201). -/
  | partialReset (domain : Domain)
deriving DecidableEq, Repr, Inhabited

/-- Why the decoder refuses an op word (30_encoding.md R98). -/
inductive DecodeReject where
  | reserved
  | wrongPort
deriving DecidableEq, Repr

/-- The implementation parameters (00_scope.md R5). `DATA_W` is fixed at 8 and is the type `Byte`. -/
structure Params where
  /-- `ADDR_W`: log2 of the FIFO depth. -/
  addrW : Nat
  /-- `OVF_W`: width of the overflow counter. -/
  ovfW : Nat
  /-- `PWM_W`: width of a PWM level and of the time base. -/
  pwmW : Nat
  /-- `PITCH_W`: width of the pitch register and of the tone counter. -/
  pitchW : Nat
  /-- `TONE_OFF_LEVEL`: the level power mode writes to channel 2. -/
  toneOffLevel : Nat
  /-- `TONE_IDLE`: the drive line's level while disarmed, `true` = 1. -/
  toneIdle : Bool
  /-- `PITCH_MODE`. -/
  pitchMode : PitchMode
deriving DecidableEq, Repr

/-- `N = 2^ADDR_W`, the FIFO depth (00_scope.md R5, R6). -/
def Params.depth (p : Params) : Nat := 2 ^ p.addrW

/-- `PTR_W = ADDR_W + 1` (00_scope.md R5). -/
def Params.ptrW (p : Params) : Nat := p.addrW + 1

/-- `PWM_MAX = 2^PWM_W - 1`, the fully inactive level (00_scope.md R5). -/
def Params.pwmMax (p : Params) : Nat := 2 ^ p.pwmW - 1

/-- `2^OVF_W - 1`, the value at which `ovf` saturates (10_state.md R35). -/
def Params.ovfMax (p : Params) : Nat := 2 ^ p.ovfW - 1

/-- The legal values of the parameters (00_scope.md R5, R7). -/
abbrev Params.Legal (p : Params) : Prop :=
  1 ≤ p.addrW ∧ p.addrW ≤ 15 ∧ 1 ≤ p.ovfW ∧ p.ovfW ≤ 32 ∧ 2 ≤ p.pwmW ∧ p.pwmW ≤ 16 ∧
    1 ≤ p.pitchW ∧ p.pitchW ≤ 16 ∧ p.toneOffLevel ≤ p.pwmMax

/-- The default values of 00_scope.md R5, which the masks of the opcode table also use.
DESIGN CHOICE (log entry 3): the spec leaves each of them OPEN. -/
def Params.default : Params where
  addrW := 2
  ovfW := 16
  pwmW := 8
  pitchW := 16
  toneOffLevel := 255
  toneIdle := false
  pitchMode := .latch

/-- The free byte of the `n`-th draw (00_scope.md R18 `draw`, 40_fifo.md R111): any value. -/
opaque Config.freeByte : Nat → Byte

/-- The byte of a storage slot that nothing has written (10_state.md R40, 93_implementation_defined.md
ID-1): any value, one per slot. -/
opaque Config.storageByte : Nat → Byte

/-- The event that happens where the schedule in the state lists none (00_scope.md R13: the order is
left open): any event. -/
opaque Config.freeEvent : Nat → Event

end Sys2Proof
end

