-- ==== Sys2Proof/Syntax.lean ====
section
/-! DEFINITION. The ops of the block, one constructor per row of spec/opcode_table.json, in the table's
order (30_encoding.md R96). Operands are the fields of 30_encoding.md R91, already pulled out. -/
namespace Sys2Proof

/-- An op. `level` and `pitch` keep all 16 bits of `data`; `Instr.wellFormed` says which the block's
parameters admit (30_encoding.md R91). -/
inductive Instr where
  /-- `FIFO.PUSH b` (40_fifo.md R110) -/
  | fifoPush (b : Byte)
  /-- `FIFO.POP` (40_fifo.md R111) -/
  | fifoPop
  /-- `FIFO.EMPTY` (40_fifo.md R112) -/
  | fifoEmpty
  /-- `FIFO.FULL` (40_fifo.md R113) -/
  | fifoFull
  /-- `FIFO.RCOUNT` (40_fifo.md R114) -/
  | fifoRcount
  /-- `FIFO.WCOUNT` (40_fifo.md R115) -/
  | fifoWcount
  /-- `FIFO.OVFCNT` (40_fifo.md R116) -/
  | fifoOvfcnt
  /-- `FIFO.OVFCLR` (40_fifo.md R117) -/
  | fifoOvfclr
  /-- `FIFO.UNFLAG` (40_fifo.md R118) -/
  | fifoUnflag
  /-- `FIFO.UNFCLR` (40_fifo.md R119) -/
  | fifoUnfclr
  /-- `PWM.SET ch, l` (41_pwm.md R144) -/
  | pwmSet (ch : Channel) (level : Half)
  /-- `PWM.GET ch` (41_pwm.md R145) -/
  | pwmGet (ch : Channel)
  /-- `PWM.POWER` (41_pwm.md R146) -/
  | pwmPower
  /-- `RELAY.SET open` (41_pwm.md R147); `true` = 1 = UNLOCKED -/
  | relaySet (unlock : Bool)
  /-- `RELAY.GET` (41_pwm.md R148) -/
  | relayGet
  /-- `TONE.PITCH p` (42_tone.md R163) -/
  | tonePitch (pitch : Half)
  /-- `TONE.GETPITCH` (42_tone.md R164) -/
  | toneGetpitch
  /-- `TONE.INIT` (42_tone.md R165) -/
  | toneInit
  /-- `TONE.ON` (42_tone.md R166) -/
  | toneOn
  /-- `TONE.OFF` (42_tone.md R167) -/
  | toneOff
  /-- `TONE.STATUS` (42_tone.md R168) -/
  | toneStatus
deriving DecidableEq, Repr, Inhabited

end Sys2Proof
end

