-- ==== Sys2Proof/WellFormed.lean ====
section
/-! DEFINITION. Which ops a block with given parameters has: the operand ranges of 30_encoding.md R91
that a type does not already give. -/
namespace Sys2Proof

/-- The level fits `PWM_W` bits and the pitch fits `PITCH_W` bits (30_encoding.md R91). The byte, the
channel and the relay bit are in range by their types. -/
def Instr.wellFormed (p : Params) : Instr → Bool
  | .fifoPush _ => true
  | .fifoPop => true
  | .fifoEmpty => true
  | .fifoFull => true
  | .fifoRcount => true
  | .fifoWcount => true
  | .fifoOvfcnt => true
  | .fifoOvfclr => true
  | .fifoUnflag => true
  | .fifoUnfclr => true
  | .pwmSet _ l => decide (l.toNat < 2 ^ p.pwmW)
  | .pwmGet _ => true
  | .pwmPower => true
  | .relaySet _ => true
  | .relayGet => true
  | .tonePitch q => decide (q.toNat < 2 ^ p.pitchW)
  | .toneGetpitch => true
  | .toneInit => true
  | .toneOn => true
  | .toneOff => true
  | .toneStatus => true

end Sys2Proof
end

