-- ==== Sys2Proof/Decode.lean ====
section
/-! DEFINITION. The decoder, total on every 32-bit word and both ports (00_scope.md R15, 30_encoding.md
R98), the opcode map as a list of rows (R96), and the encoder written from the same map. -/
namespace Sys2Proof

/-! ### Fields of an op word (30_encoding.md R90) -/

/-- `opcode = w[31:24]` -/
def opcodeOf (w : Word) : Byte := w.extractLsb' 24 8

/-- `sel = w[23:16]` -/
def selOf (w : Word) : Byte := w.extractLsb' 16 8

/-- `data = w[15:0]` -/
def dataOf (w : Word) : Half := w.extractLsb' 0 16

/-- `{opcode, sel, data}` -/
def makeWord (opcode sel : Byte) (data : Half) : Word := (opcode ++ sel) ++ data

/-- The channel named by `sel`, after the checks `sel[7:2] = 0` and `ch != 3` (30_encoding.md R94). -/
def channelOf (sel : Byte) : Option Channel :=
  if sel = 0#8 then some .ch0 else if sel = 1#8 then some .ch1 else if sel = 2#8 then some .ch2 else none

/-- The `sel` field of a channel (41_pwm.md R142). -/
def Channel.sel : Channel → Byte
  | .ch0 => 0#8
  | .ch1 => 1#8
  | .ch2 => 2#8

/-- An op with no operand: `sel` and `data` must be 0 (30_encoding.md R91). -/
def decodePlain (sel : Byte) (data : Half) (i : Instr) : Option Instr :=
  if sel = 0#8 ∧ data = 0#16 then some i else none

/-- `FIFO.PUSH b`: `b = data[7:0]`, `data[15:8]` and `sel` must be 0 (30_encoding.md R91). -/
def decodePush (sel : Byte) (data : Half) : Option Instr :=
  if sel = 0#8 ∧ data.toNat < 2 ^ 8 then some (.fifoPush (data.setWidth 8)) else none

/-- `PWM.SET ch, l`: `l = data[PWM_W-1:0]`, `data[15:PWM_W]` must be 0 (30_encoding.md R91). -/
def decodePwmSet (p : Params) (sel : Byte) (data : Half) : Option Instr :=
  match channelOf sel with
  | some ch => if data.toNat < 2 ^ p.pwmW then some (.pwmSet ch data) else none
  | none => none

/-- `PWM.GET ch`: `data` must be 0 (30_encoding.md R91). -/
def decodePwmGet (sel : Byte) (data : Half) : Option Instr :=
  match channelOf sel with
  | some ch => if data = 0#16 then some (.pwmGet ch) else none
  | none => none

/-- `RELAY.SET open`: `open = data[0]`, `data[15:1]` and `sel` must be 0 (30_encoding.md R91). -/
def decodeRelaySet (sel : Byte) (data : Half) : Option Instr :=
  if sel = 0#8 ∧ data.toNat < 2 ^ 1 then some (.relaySet (data.getLsbD 0)) else none

/-- `TONE.PITCH p`: `p = data[PITCH_W-1:0]`, `data[15:PITCH_W]` and `sel` must be 0 (30_encoding.md R91). -/
def decodePitch (p : Params) (sel : Byte) (data : Half) : Option Instr :=
  if sel = 0#8 ∧ data.toNat < 2 ^ p.pitchW then some (.tonePitch data) else none

/-- The op a word spells, whatever the port: the opcode map of 30_encoding.md R96 with the
must-be-zero fields of R91 and R92. `none` is the reserved space of R99. -/
def decodeRow (p : Params) (w : Word) : Option Instr :=
  match opcodeOf w with
  | 0x10#8 => decodePush (selOf w) (dataOf w)
  | 0x11#8 => decodePlain (selOf w) (dataOf w) .fifoPop
  | 0x12#8 => decodePlain (selOf w) (dataOf w) .fifoEmpty
  | 0x13#8 => decodePlain (selOf w) (dataOf w) .fifoFull
  | 0x14#8 => decodePlain (selOf w) (dataOf w) .fifoRcount
  | 0x15#8 => decodePlain (selOf w) (dataOf w) .fifoWcount
  | 0x16#8 => decodePlain (selOf w) (dataOf w) .fifoOvfcnt
  | 0x17#8 => decodePlain (selOf w) (dataOf w) .fifoOvfclr
  | 0x18#8 => decodePlain (selOf w) (dataOf w) .fifoUnflag
  | 0x19#8 => decodePlain (selOf w) (dataOf w) .fifoUnfclr
  | 0x20#8 => decodePwmSet p (selOf w) (dataOf w)
  | 0x21#8 => decodePwmGet (selOf w) (dataOf w)
  | 0x22#8 => decodePlain (selOf w) (dataOf w) .pwmPower
  | 0x23#8 => decodeRelaySet (selOf w) (dataOf w)
  | 0x24#8 => decodePlain (selOf w) (dataOf w) .relayGet
  | 0x30#8 => decodePitch p (selOf w) (dataOf w)
  | 0x31#8 => decodePlain (selOf w) (dataOf w) .toneGetpitch
  | 0x32#8 => decodePlain (selOf w) (dataOf w) .toneInit
  | 0x33#8 => decodePlain (selOf w) (dataOf w) .toneOn
  | 0x34#8 => decodePlain (selOf w) (dataOf w) .toneOff
  | 0x35#8 => decodePlain (selOf w) (dataOf w) .toneStatus
  | _ => none

/-- The port that takes an op (30_encoding.md R97). -/
def Instr.port : Instr → Port
  | .fifoPush _ => .w
  | .fifoPop => .r
  | .fifoEmpty => .r
  | .fifoFull => .w
  | .fifoRcount => .r
  | .fifoWcount => .w
  | .fifoOvfcnt => .w
  | .fifoOvfclr => .w
  | .fifoUnflag => .r
  | .fifoUnfclr => .r
  | .pwmSet _ _ => .r
  | .pwmGet _ => .r
  | .pwmPower => .r
  | .relaySet _ => .r
  | .relayGet => .r
  | .tonePitch _ => .r
  | .toneGetpitch => .r
  | .toneInit => .r
  | .toneOn => .r
  | .toneOff => .r
  | .toneStatus => .r

/-- The decoder (30_encoding.md R98): the op of the word at this port, or the reason it is refused. -/
def decode (p : Params) (port : Port) (w : Word) : Except DecodeReject Instr :=
  match decodeRow p w with
  | some i => if i.port = port then .ok i else .error .wrongPort
  | none => .error .reserved

/-! ### The encoder -/

/-- The opcode of an op (30_encoding.md R96). -/
def Instr.opcode : Instr → Byte
  | .fifoPush _ => 0x10#8
  | .fifoPop => 0x11#8
  | .fifoEmpty => 0x12#8
  | .fifoFull => 0x13#8
  | .fifoRcount => 0x14#8
  | .fifoWcount => 0x15#8
  | .fifoOvfcnt => 0x16#8
  | .fifoOvfclr => 0x17#8
  | .fifoUnflag => 0x18#8
  | .fifoUnfclr => 0x19#8
  | .pwmSet _ _ => 0x20#8
  | .pwmGet _ => 0x21#8
  | .pwmPower => 0x22#8
  | .relaySet _ => 0x23#8
  | .relayGet => 0x24#8
  | .tonePitch _ => 0x30#8
  | .toneGetpitch => 0x31#8
  | .toneInit => 0x32#8
  | .toneOn => 0x33#8
  | .toneOff => 0x34#8
  | .toneStatus => 0x35#8

/-- The `sel` field of an op: the channel of `PWM.SET` and `PWM.GET`, else 0 (30_encoding.md R91). -/
def Instr.selField : Instr → Byte
  | .fifoPush _ => 0#8
  | .fifoPop => 0#8
  | .fifoEmpty => 0#8
  | .fifoFull => 0#8
  | .fifoRcount => 0#8
  | .fifoWcount => 0#8
  | .fifoOvfcnt => 0#8
  | .fifoOvfclr => 0#8
  | .fifoUnflag => 0#8
  | .fifoUnfclr => 0#8
  | .pwmSet ch _ => ch.sel
  | .pwmGet ch => ch.sel
  | .pwmPower => 0#8
  | .relaySet _ => 0#8
  | .relayGet => 0#8
  | .tonePitch _ => 0#8
  | .toneGetpitch => 0#8
  | .toneInit => 0#8
  | .toneOn => 0#8
  | .toneOff => 0#8
  | .toneStatus => 0#8

/-- The `data` field of an op (30_encoding.md R91). -/
def Instr.dataField : Instr → Half
  | .fifoPush b => b.setWidth 16
  | .fifoPop => 0#16
  | .fifoEmpty => 0#16
  | .fifoFull => 0#16
  | .fifoRcount => 0#16
  | .fifoWcount => 0#16
  | .fifoOvfcnt => 0#16
  | .fifoOvfclr => 0#16
  | .fifoUnflag => 0#16
  | .fifoUnfclr => 0#16
  | .pwmSet _ l => l
  | .pwmGet _ => 0#16
  | .pwmPower => 0#16
  | .relaySet u => (BitVec.ofBool u).setWidth 16
  | .relayGet => 0#16
  | .tonePitch q => q
  | .toneGetpitch => 0#16
  | .toneInit => 0#16
  | .toneOn => 0#16
  | .toneOff => 0#16
  | .toneStatus => 0#16

/-- The op word of an op (30_encoding.md R90, R91, R96). -/
def encode (i : Instr) : Word := makeWord i.opcode i.selField i.dataField

/-! ### The opcode map as the spec prints it (30_encoding.md R96) -/

/-- One row of the opcode map. `channel` is the extra constraint `sel[1:0] != 3`. -/
structure OpRow where
  mnemonic : String
  port : Port
  bits : Word
  mask : Word
  channel : Bool
deriving DecidableEq, Repr

/-- `2^k - 1` in the `data` field: the bits `data[k-1:0]` that an op uses. -/
def dataMask (k : Nat) : Word := BitVec.ofNat 32 (2 ^ k - 1)

/-- The general mask of `PWM.SET` (30_encoding.md R96). -/
def pwmSetMask (p : Params) : Word := 0xFFFC0000#32 ||| (0x0000FFFF#32 &&& ~~~ dataMask p.pwmW)

/-- The general mask of `TONE.PITCH` (30_encoding.md R96). -/
def pitchMask (p : Params) : Word := 0xFFFF0000#32 ||| (0x0000FFFF#32 &&& ~~~ dataMask p.pitchW)

/-- The rows of 30_encoding.md R96, for the parameters `p`. -/
def opRows (p : Params) : List OpRow :=
  [⟨"FIFO.PUSH_b", .w, 0x10000000#32, 0xFFFFFF00#32, false⟩,
   ⟨"FIFO.POP", .r, 0x11000000#32, 0xFFFFFFFF#32, false⟩,
   ⟨"FIFO.EMPTY", .r, 0x12000000#32, 0xFFFFFFFF#32, false⟩,
   ⟨"FIFO.FULL", .w, 0x13000000#32, 0xFFFFFFFF#32, false⟩,
   ⟨"FIFO.RCOUNT", .r, 0x14000000#32, 0xFFFFFFFF#32, false⟩,
   ⟨"FIFO.WCOUNT", .w, 0x15000000#32, 0xFFFFFFFF#32, false⟩,
   ⟨"FIFO.OVFCNT", .w, 0x16000000#32, 0xFFFFFFFF#32, false⟩,
   ⟨"FIFO.OVFCLR", .w, 0x17000000#32, 0xFFFFFFFF#32, false⟩,
   ⟨"FIFO.UNFLAG", .r, 0x18000000#32, 0xFFFFFFFF#32, false⟩,
   ⟨"FIFO.UNFCLR", .r, 0x19000000#32, 0xFFFFFFFF#32, false⟩] ++
  [⟨"PWM.SET_ch__l", .r, 0x20000000#32, pwmSetMask p, true⟩,
   ⟨"PWM.GET_ch", .r, 0x21000000#32, 0xFFFCFFFF#32, true⟩,
   ⟨"PWM.POWER", .r, 0x22000000#32, 0xFFFFFFFF#32, false⟩,
   ⟨"RELAY.SET_open", .r, 0x23000000#32, 0xFFFFFFFE#32, false⟩,
   ⟨"RELAY.GET", .r, 0x24000000#32, 0xFFFFFFFF#32, false⟩] ++
  [⟨"TONE.PITCH_p", .r, 0x30000000#32, pitchMask p, false⟩,
   ⟨"TONE.GETPITCH", .r, 0x31000000#32, 0xFFFFFFFF#32, false⟩,
   ⟨"TONE.INIT", .r, 0x32000000#32, 0xFFFFFFFF#32, false⟩,
   ⟨"TONE.ON", .r, 0x33000000#32, 0xFFFFFFFF#32, false⟩,
   ⟨"TONE.OFF", .r, 0x34000000#32, 0xFFFFFFFF#32, false⟩,
   ⟨"TONE.STATUS", .r, 0x35000000#32, 0xFFFFFFFF#32, false⟩]

/-- `(w AND mask) = match and constraint(w)` (30_encoding.md R98). -/
def OpRow.hits (row : OpRow) (w : Word) : Bool :=
  decide (w &&& row.mask = row.bits) && (!row.channel || decide (w.extractLsb' 16 2 ≠ 3#2))

/-- The mnemonic of an op, as spec/opcode_table.json spells it. -/
def Instr.mnemonic : Instr → String
  | .fifoPush _ => "FIFO.PUSH_b"
  | .fifoPop => "FIFO.POP"
  | .fifoEmpty => "FIFO.EMPTY"
  | .fifoFull => "FIFO.FULL"
  | .fifoRcount => "FIFO.RCOUNT"
  | .fifoWcount => "FIFO.WCOUNT"
  | .fifoOvfcnt => "FIFO.OVFCNT"
  | .fifoOvfclr => "FIFO.OVFCLR"
  | .fifoUnflag => "FIFO.UNFLAG"
  | .fifoUnfclr => "FIFO.UNFCLR"
  | .pwmSet _ _ => "PWM.SET_ch__l"
  | .pwmGet _ => "PWM.GET_ch"
  | .pwmPower => "PWM.POWER"
  | .relaySet _ => "RELAY.SET_open"
  | .relayGet => "RELAY.GET"
  | .tonePitch _ => "TONE.PITCH_p"
  | .toneGetpitch => "TONE.GETPITCH"
  | .toneInit => "TONE.INIT"
  | .toneOn => "TONE.ON"
  | .toneOff => "TONE.OFF"
  | .toneStatus => "TONE.STATUS"

/-! ### What the host asks of the decoder -/

/-- The port at which a word is presented when only the word is known: the port that takes the op it
spells, and the R port for a word that spells none (both ports refuse it). -/
def portOfWord (p : Params) (w : Word) : Port :=
  match decodeRow p w with
  | some i => i.port
  | none => .r

/-- The op decoded from a table word of `nbits` bits at its own port, with the default parameters, for
which the table's masks are printed (log entry 15). -/
def decodeTableWord (nbits w : Nat) : Option Instr :=
  match decode Params.default (portOfWord Params.default (BitVec.ofNat 32 (w % 2 ^ nbits)))
      (BitVec.ofNat 32 (w % 2 ^ nbits)) with
  | .ok i => some i
  | .error _ => none

end Sys2Proof
end

