-- ==== Sys2Proof/Machine/State.lean ====
section
/-! DEFINITION. The state of the block (10_state.md R30 to R62), its reset value (R59), and the ways a
step can end other than in a next state. -/
namespace Sys2Proof.Machine

/-- The FIFO storage (10_state.md R40): (slot, byte) pairs, slots strictly rising. A slot not listed has
not been written since the model started and holds no value of its own (log entry 6). -/
abbrev Memory := List Host.Cell

/-- The canonical form of the storage: slots strictly rising, so none is listed twice. An unlisted slot
has no value, so no entry can repeat it. -/
abbrev Memory.wf (m : Memory) : Prop := m.Pairwise (fun a b => a.1 < b.1)

/-- The three level registers (10_state.md R45), by channel id. -/
structure Levels where
  ch0 : Nat
  ch1 : Nat
  ch2 : Nat
deriving DecidableEq, Repr

/-- The contract-violation kinds, a closed list (60_exceptions.md R183). -/
inductive Viol where
  | popWhenEmpty
  | pitchUnset
deriving DecidableEq, Repr

/-- A set of violation kinds (10_state.md R60), as its membership in each of the two kinds. -/
structure ViolSet where
  popWhenEmpty : Bool
  pitchUnset : Bool
deriving DecidableEq, Repr

/-- The state of the block (10_state.md R30). A register of `W` bits is the number it holds; that it
stays below `2^W` is part of `State.Inv` (Sys2Proof/Safety.lean, log entry 5). -/
structure State where
  /-- The parameters of this block (00_scope.md R5). No step changes them. -/
  cfg : Params
  /-- `wbin`, write domain (10_state.md R32). -/
  wbin : Nat
  /-- `wgray`, write domain (10_state.md R33). -/
  wgray : Nat
  /-- `wq_rgray`, write domain (10_state.md R34). -/
  wqRgray : Nat
  /-- `ovf`, write domain (10_state.md R35). -/
  ovf : Nat
  /-- `rbin`, read domain (10_state.md R36). -/
  rbin : Nat
  /-- `rgray`, read domain (10_state.md R37). -/
  rgray : Nat
  /-- `rq_wgray`, read domain (10_state.md R38). -/
  rqWgray : Nat
  /-- `unf`, read domain (10_state.md R39). -/
  unf : Bool
  /-- `mem` (10_state.md R40). -/
  mem : Memory
  /-- `level[0..2]`, read domain (10_state.md R45). -/
  level : Levels
  /-- `pwm_cnt`, read domain (10_state.md R46). -/
  pwmCnt : Nat
  /-- `relay_open`, read domain; `true` = 1 = UNLOCKED (10_state.md R47). -/
  relayOpen : Bool
  /-- `pitch`, read domain (10_state.md R48). -/
  pitch : Nat
  /-- `pact`, read domain (10_state.md R49). -/
  pact : Nat
  /-- `tcnt`, read domain (10_state.md R50). -/
  tcnt : Nat
  /-- `armed`, read domain (10_state.md R51). -/
  armed : Bool
  /-- `drive`, read domain (10_state.md R52). -/
  drive : Bool
  /-- `viol`, model-only ghost (10_state.md R60). -/
  viol : ViolSet
  /-- `refused`, model-only ghost (10_state.md R61). -/
  refused : Bool
  /-- `pitch_set`, model-only ghost (10_state.md R62). -/
  pitchSet : Bool
  /-- The result word of the latest op taken at the W port, `none` where that op returns none
  (00_scope.md R10, R14; log entry 8). -/
  wResult : Option Word
  /-- The result word of the latest op taken at the R port, `none` where that op returns none
  (00_scope.md R10, R14; log entry 8). -/
  rResult : Option Word
  /-- The model's own: how many free values have been used (log entry 7). -/
  draws : Nat
  /-- The model's own: the events still to come, next first (00_scope.md R13; log entry 1). -/
  pending : List Event
deriving DecidableEq, Repr

/-- The faults: none. No step of the block traps or stops an agent (60_exceptions.md R180; log entry
17), so this type has no constructor, nobody raises one, and that every step ends in a next state or a
refusal holds by type. -/
inductive Fault where
deriving DecidableEq, Repr

/-- Why a step is refused (00_scope.md R14). -/
inductive Refusal where
  /-- A reserved op word (30_encoding.md R99, 60_exceptions.md R182), with the port and the word as
  payload. Raised by a step that takes an op word no row of the opcode map matches. Safe: nothing is
  proved of a run that contains one. -/
  | reserved (port : Port) (word : Word)
  /-- A listed op at the other port (30_encoding.md R98, 60_exceptions.md R182), with the port and the
  word as payload. Raised by a step that takes such a word. Safe. -/
  | wrongPort (port : Port) (word : Word)
  /-- Reset applied to one domain only (70_reset_and_hazards.md R201), with that domain as payload.
  Raised by the event `partialReset`. Safe. -/
  | partialReset (domain : Domain)
  /-- The parameters are none of a legal block (00_scope.md R6). Raised by every step of a state whose
  `cfg` is not legal (log entry 4). Safe. -/
  | illegalConfig
  /-- The instruction has no meaning in the model yet. Raised by no arm of `exec`. Safe. -/
  | notModelled (mnemonic : String)
deriving DecidableEq, Repr

/-- The block with parameters `p` when the model starts, which is its power-on state: every field at
the value of 10_state.md R59, no storage slot written, no violation, nothing refused, no result word,
no event listed. -/
def State.resetWith (p : Params) : State where
  cfg := p
  wbin := 0
  wgray := 0
  wqRgray := 0
  ovf := 0
  rbin := 0
  rgray := 0
  rqWgray := 0
  unf := false
  mem := []
  level := ⟨p.pwmMax, p.pwmMax, p.toneOffLevel⟩
  pwmCnt := 0
  relayOpen := false
  pitch := 0
  pact := 0
  tcnt := 0
  armed := false
  drive := p.toneIdle
  viol := ⟨false, false⟩
  refused := false
  pitchSet := false
  wResult := none
  rResult := none
  draws := 0
  pending := []

/-- The machine right after reset, with the default parameters (log entry 3). -/
def State.reset : State := State.resetWith Params.default

end Sys2Proof.Machine
end

