-- ==== Sys2Proof/Machine/Ops.lean ====
section
/-! DEFINITION. The named operations on pointers, storage, violations, result words and free values,
and the reset event. The block takes no exception (60_exceptions.md R180, R186) and has no return from
one (R187); what it has in their place is `State.recordViol` and `State.markRefused`. -/
namespace Sys2Proof.Machine

/-! ### Modular arithmetic and Gray code (00_scope.md R18) -/

/-- `trunc_W(v) = v mod 2^W` -/
def trunc (w v : Nat) : Nat := v % 2 ^ w

/-- `a +_W b` -/
def addW (w a b : Nat) : Nat := trunc w (a + b)

/-- `a -_W b = (a - b) mod 2^W`, for any naturals `a` and `b` -/
def subW (w a b : Nat) : Nat := trunc w (a + (2 ^ w - trunc w b))

/-- `gray(b) = b XOR (b >> 1)` -/
def gray (b : Nat) : Nat := b ^^^ (b >>> 1)

/-- `bin(g)` on `w` bits. Its top bit is that of `g`, and each lower bit is its own upper neighbour
XOR the bit of `g`. -/
def bin : Nat → Nat → Nat
  | 0, _ => 0
  | w + 1, g => g ^^^ bin w (g >>> 1)

/-- The slot index `ptr[ADDR_W-1:0]` of a pointer (10_state.md R31). -/
def slotOf (p : Params) (ptr : Nat) : Nat := trunc p.addrW ptr

/-! ### Storage (20_memory.md R70, R73) -/

/-- The byte written to slot `i`, or `none` where no write has reached it. -/
def Memory.read : Memory → Nat → Option Byte
  | [], _ => none
  | c :: m, i => if i = c.1 then some c.2 else Memory.read m i

/-- `MemWrite(i, 1, v)`: keeps the slots strictly rising. -/
def Memory.write : Memory → Nat → Byte → Memory
  | [], i, v => [(i, v)]
  | c :: m, i, v =>
    if i < c.1 then (i, v) :: c :: m
    else if i = c.1 then (i, v) :: m
    else c :: Memory.write m i v

/-- `MemRead(i, 1)`: the byte of slot `i`, a free value of the slot where nothing has written it
(93_implementation_defined.md ID-1). -/
def Memory.byteAt (m : Memory) (i : Nat) : Byte := (m.read i).getD (Config.storageByte i)

/-! ### Ghost records and result words -/

/-- `viol` with a kind added; nothing is ever removed (10_state.md R60). -/
def ViolSet.insert (v : ViolSet) : Viol → ViolSet
  | .popWhenEmpty => { v with popWhenEmpty := true }
  | .pitchUnset => { v with pitchUnset := true }

/-- Is the kind in the set? -/
def ViolSet.has (v : ViolSet) : Viol → Bool
  | .popWhenEmpty => v.popWhenEmpty
  | .pitchUnset => v.pitchUnset

/-- `record Viol(kind)`: the step continues (00_scope.md R18). -/
def State.recordViol (s : State) (k : Viol) : State := { s with viol := s.viol.insert k }

/-- The op taken at this port returns this result word, or none (30_encoding.md R93). -/
def State.answer (s : State) (port : Port) (result : Option Word) : State :=
  match port with
  | .w => { s with wResult := result }
  | .r => { s with rResult := result }

/-- `draw x : 8 bits`: the byte of the next draw (00_scope.md R18). -/
def State.drawn (s : State) : Byte := Config.freeByte s.draws

/-- A free value has been used. -/
def State.spendDraw (s : State) : State := { s with draws := s.draws + 1 }

/-! ### Reset and refusal -/

/-- The reset event (70_reset_and_hazards.md R200): every hardware field but the storage at its reset
value, `pitch_set` cleared, `viol` and `refused` kept. The model's own fields: no result word is
returned, and the schedule and the count of free values go on. -/
def State.resetEvent (s : State) : State :=
  { State.resetWith s.cfg with
    mem := s.mem, viol := s.viol, refused := s.refused, draws := s.draws, pending := s.pending }

/-- What a refused step leaves (60_exceptions.md R182, 30_encoding.md R99): the hardware state
unchanged, the ghost mark set, and result word 0 returned at the port of a refused op word. -/
def State.markRefused (s : State) : Refusal → State
  | .reserved port _ => { s.answer port (some 0#32) with refused := true }
  | .wrongPort port _ => { s.answer port (some 0#32) with refused := true }
  | _ => { s with refused := true }

end Sys2Proof.Machine
end

