-- ==== Sys2Proof/Machine/Flags.lean ====
section
/-! DEFINITION. The counts and flags computed from the pointers (10_state.md R41 to R43, R56), and the
bytes the FIFO holds (R41). -/
namespace Sys2Proof.Machine

/-- The true count `wbin -_PTR_W rbin` (10_state.md R41). -/
def State.count (s : State) : Nat := subW s.cfg.ptrW s.wbin s.rbin

/-- The producer view `wbin -_PTR_W bin(wq_rgray)` (10_state.md R42). -/
def State.wcount (s : State) : Nat := subW s.cfg.ptrW s.wbin (bin s.cfg.ptrW s.wqRgray)

/-- The consumer view `bin(rq_wgray) -_PTR_W rbin` (10_state.md R43). -/
def State.rcount (s : State) : Nat := subW s.cfg.ptrW (bin s.cfg.ptrW s.rqWgray) s.rbin

/-- `full = (wcount = N)` (10_state.md R42). -/
def State.full (s : State) : Bool := decide (s.wcount = s.cfg.depth)

/-- `full` in Gray form, for hardware builders: `wgray = wq_rgray XOR (0b11 << (PTR_W-2))`
(10_state.md R42). -/
def State.fullGray (s : State) : Bool := decide (s.wgray = s.wqRgray ^^^ (3 <<< (s.cfg.ptrW - 2)))

/-- `empty`, in the form `FIFO.EMPTY` tests it: `rq_wgray = rgray` (10_state.md R43, 40_fifo.md R112). -/
def State.empty (s : State) : Bool := decide (s.rqWgray = s.rgray)

/-- The bytes held: slot `(rbin + k) mod N` for `k = 0 .. count-1`, oldest first (10_state.md R41). -/
def State.contents (s : State) : List Byte :=
  (List.range s.count).map fun k => s.mem.byteAt ((s.rbin + k) % s.cfg.depth)

end Sys2Proof.Machine
end

