-- ==== Sys2Proof/Machine/Operands.lean ====
section
/-! DEFINITION. Operand values taken from the `data` field (30_encoding.md R94), the level registers by
channel, and the assembly of result words (30_encoding.md R93, R95). -/
namespace Sys2Proof.Machine

/-- `l = data[PWM_W-1:0]` (30_encoding.md R94). -/
def levelOperand (p : Params) (data : Half) : Nat := trunc p.pwmW data.toNat

/-- `p = data[PITCH_W-1:0]` (30_encoding.md R94). -/
def pitchOperand (p : Params) (data : Half) : Nat := trunc p.pitchW data.toNat

/-- `level[ch]` -/
def Levels.get (l : Levels) : Channel → Nat
  | .ch0 => l.ch0
  | .ch1 => l.ch1
  | .ch2 => l.ch2

/-- `level[ch] <- v` -/
def Levels.set (l : Levels) (ch : Channel) (v : Nat) : Levels :=
  match ch with
  | .ch0 => { l with ch0 := v }
  | .ch1 => { l with ch1 := v }
  | .ch2 => { l with ch2 := v }

/-- `zext_32` of a number (30_encoding.md R95). -/
def numberResult (v : Nat) : Word := BitVec.ofNat 32 v

/-- `zext_32` of one bit (30_encoding.md R95). -/
def bitResult (b : Bool) : Word := (BitVec.ofBool b).setWidth 32

/-- `zext_32({valid, byte})`, the result of `FIFO.POP` (30_encoding.md R95). -/
def popResult (valid : Bool) (b : Byte) : Word := (BitVec.ofBool valid ++ b).setWidth 32

/-- `zext_32({drive, armed})`, the result of `TONE.STATUS` (42_tone.md R168). -/
def statusResult (drive armed : Bool) : Word := (BitVec.ofBool drive ++ BitVec.ofBool armed).setWidth 32

end Sys2Proof.Machine
end

