-- ==== Sys2Proof/Machine/Fifo.lean ====
section
/-! DEFINITION. The FIFO ops and the two synchroniser steps (40_fifo.md R110 to R121). -/
namespace Sys2Proof.Machine

/-! ### What a push and a pop do to the state -/

/-- An accepted byte: written to the `wbin` slot, and the write pointer advanced in both its forms
(40_fifo.md R110). -/
def State.enqueue (s : State) (b : Byte) : State :=
  { s with
    mem := s.mem.write (slotOf s.cfg s.wbin) b
    wbin := addW s.cfg.ptrW s.wbin 1
    wgray := gray (addW s.cfg.ptrW s.wbin 1) }

/-- A dropped byte: counted, up to saturation (40_fifo.md R110). -/
def State.dropByte (s : State) : State :=
  { s with ovf := if s.ovf < s.cfg.ovfMax then s.ovf + 1 else s.ovf }

/-- The byte a pop takes: that of the `rbin` slot (40_fifo.md R111). -/
def State.headByte (s : State) : Byte := s.mem.byteAt (slotOf s.cfg s.rbin)

/-- A byte taken: the read pointer advanced in both its forms (40_fifo.md R111). -/
def State.dequeue (s : State) : State :=
  { s with
    rbin := addW s.cfg.ptrW s.rbin 1
    rgray := gray (addW s.cfg.ptrW s.rbin 1) }

/-- A pop of an empty view: the sticky flag, the violation, and one draw used (40_fifo.md R111). -/
def State.underflow (s : State) : State :=
  { (s.recordViol .popWhenEmpty).spendDraw with unf := true }

/-! ### Write-port ops -/

/-- `FIFO.PUSH b` (40_fifo.md R110). -/
def execFifoPush (b : Byte) (s : State) : Host.Outcome State Fault Refusal :=
  .next ((if s.wcount = s.cfg.depth then s.dropByte else s.enqueue b).answer .w none)

/-- `FIFO.FULL` (40_fifo.md R113). -/
def execFifoFull (s : State) : Host.Outcome State Fault Refusal :=
  .next (s.answer .w (some (bitResult s.full)))

/-- `FIFO.WCOUNT` (40_fifo.md R115). -/
def execFifoWcount (s : State) : Host.Outcome State Fault Refusal :=
  .next (s.answer .w (some (numberResult s.wcount)))

/-- `FIFO.OVFCNT` (40_fifo.md R116). -/
def execFifoOvfcnt (s : State) : Host.Outcome State Fault Refusal :=
  .next (s.answer .w (some (numberResult s.ovf)))

/-- `FIFO.OVFCLR` (40_fifo.md R117). -/
def execFifoOvfclr (s : State) : Host.Outcome State Fault Refusal :=
  .next ({ s with ovf := 0 }.answer .w none)

/-! ### Read-port ops -/

/-- `FIFO.POP` (40_fifo.md R111). -/
def execFifoPop (s : State) : Host.Outcome State Fault Refusal :=
  .next (if s.rcount = 0 then s.underflow.answer .r (some (popResult false s.drawn))
    else s.dequeue.answer .r (some (popResult true s.headByte)))

/-- `FIFO.EMPTY` (40_fifo.md R112). -/
def execFifoEmpty (s : State) : Host.Outcome State Fault Refusal :=
  .next (s.answer .r (some (bitResult s.empty)))

/-- `FIFO.RCOUNT` (40_fifo.md R114). -/
def execFifoRcount (s : State) : Host.Outcome State Fault Refusal :=
  .next (s.answer .r (some (numberResult s.rcount)))

/-- `FIFO.UNFLAG` (40_fifo.md R118). -/
def execFifoUnflag (s : State) : Host.Outcome State Fault Refusal :=
  .next (s.answer .r (some (bitResult s.unf)))

/-- `FIFO.UNFCLR` (40_fifo.md R119). -/
def execFifoUnfclr (s : State) : Host.Outcome State Fault Refusal :=
  .next ({ s with unf := false }.answer .r none)

/-! ### Synchroniser steps -/

/-- `SYNC_W2R`: publish the write pointer to the consumer (40_fifo.md R120). -/
def State.syncW2R (s : State) : State := { s with rqWgray := s.wgray }

/-- `SYNC_R2W`: publish the read pointer to the producer (40_fifo.md R121). -/
def State.syncR2W (s : State) : State := { s with wqRgray := s.rgray }

end Sys2Proof.Machine
end

