-- ==== Sys2Proof/Machine/Pwm.lean ====
section
/-! DEFINITION. The PWM and relay ops, their outputs, and the time-base step (41_pwm.md R140 to R149). -/
namespace Sys2Proof.Machine

/-! ### Outputs -/

/-- `ch_out[i]`: `true` = 1 = high = inactive (41_pwm.md R140). -/
def State.chOut (s : State) (ch : Channel) : Bool := decide (s.pwmCnt < s.level.get ch)

/-- `ch_out[2:0]` as a three-bit number, channel 0 least significant (00_scope.md R11). -/
def State.chOutBits (s : State) : BitVec 3 :=
  (BitVec.ofBool (s.chOut .ch2) ++ BitVec.ofBool (s.chOut .ch1)) ++ BitVec.ofBool (s.chOut .ch0)

/-- `relay_n = NOT relay_open`: `true` = 1 = high = LOCKED (41_pwm.md R141). -/
def State.relayN (s : State) : Bool := !s.relayOpen

/-! ### Operations -/

/-- `PWM.SET ch, l` (41_pwm.md R144). -/
def execPwmSet (ch : Channel) (level : Half) (s : State) : Host.Outcome State Fault Refusal :=
  .next ({ s with level := s.level.set ch (levelOperand s.cfg level) }.answer .r none)

/-- `PWM.GET ch` (41_pwm.md R145). -/
def execPwmGet (ch : Channel) (s : State) : Host.Outcome State Fault Refusal :=
  .next (s.answer .r (some (numberResult (s.level.get ch))))

/-- `PWM.POWER` (41_pwm.md R146). -/
def execPwmPower (s : State) : Host.Outcome State Fault Refusal :=
  .next ({ s with level := ⟨s.cfg.pwmMax, s.cfg.pwmMax, s.cfg.toneOffLevel⟩ }.answer .r none)

/-- `RELAY.SET open` (41_pwm.md R147). -/
def execRelaySet (unlock : Bool) (s : State) : Host.Outcome State Fault Refusal :=
  .next ({ s with relayOpen := unlock }.answer .r none)

/-- `RELAY.GET` (41_pwm.md R148). -/
def execRelayGet (s : State) : Host.Outcome State Fault Refusal :=
  .next (s.answer .r (some (bitResult s.relayOpen)))

/-! ### Time base -/

/-- `PWM_TB`: advance the fixed time base (41_pwm.md R149). -/
def State.pwmTb (s : State) : State :=
  { s with pwmCnt := if s.pwmCnt + 1 = s.cfg.pwmMax then 0 else s.pwmCnt + 1 }

end Sys2Proof.Machine
end

