-- ==== Sys2Proof/Machine/Tone.lean ====
section
/-! DEFINITION. The tone ops, the piezo output, and the tone tick (42_tone.md R160 to R169). -/
namespace Sys2Proof.Machine

/-- `piezo = drive` (42_tone.md R160). -/
def State.piezo (s : State) : Bool := s.drive

/-- The effective pitch `P` (42_tone.md R162). -/
def State.effPitch (s : State) : Nat :=
  match s.cfg.pitchMode with
  | .latch => s.pact
  | .live => s.pitch

/-- Disarm the generator and put the drive line in its known-off state (42_tone.md R165, R167). -/
def State.disarm (s : State) : State := { s with armed := false, tcnt := 0, drive := s.cfg.toneIdle }

/-- Arm the generator, recording the violation when no pitch was written since reset (42_tone.md R166). -/
def State.arm (s : State) : State :=
  { (if s.pitchSet then s else s.recordViol .pitchUnset) with armed := true, tcnt := 0, pact := s.pitch }

/-- `TONE.PITCH p` (42_tone.md R163). -/
def execTonePitch (pitch : Half) (s : State) : Host.Outcome State Fault Refusal :=
  .next ({ s with pitch := pitchOperand s.cfg pitch, pitchSet := true }.answer .r none)

/-- `TONE.GETPITCH` (42_tone.md R164). -/
def execToneGetpitch (s : State) : Host.Outcome State Fault Refusal :=
  .next (s.answer .r (some (numberResult s.pitch)))

/-- `TONE.INIT` (42_tone.md R165). -/
def execToneInit (s : State) : Host.Outcome State Fault Refusal := .next (s.disarm.answer .r none)

/-- `TONE.ON` (42_tone.md R166). -/
def execToneOn (s : State) : Host.Outcome State Fault Refusal :=
  .next ((if s.armed then s else s.arm).answer .r none)

/-- `TONE.OFF` (42_tone.md R167). -/
def execToneOff (s : State) : Host.Outcome State Fault Refusal := .next (s.disarm.answer .r none)

/-- `TONE.STATUS` (42_tone.md R168). -/
def execToneStatus (s : State) : Host.Outcome State Fault Refusal :=
  .next (s.answer .r (some (statusResult s.drive s.armed)))

/-- `TONE_TMR`: the tone tick (42_tone.md R169). The comparison is on unbounded naturals
(00_scope.md R19). -/
def State.toneTmr (s : State) : State :=
  if s.armed then
    if s.tcnt + 1 ≥ s.effPitch then { s with drive := !s.drive, tcnt := 0 }
    else { s with tcnt := s.tcnt + 1 }
  else s

end Sys2Proof.Machine
end

