-- ==== Sys2Proof/Machine/Dispatch.lean ====
section
/-! DEFINITION. One arm per op: which meaning runs (30_encoding.md R96). -/
namespace Sys2Proof.Machine

def exec (i : Instr) (s : State) : Host.Outcome State Fault Refusal :=
  match i with
  | .fifoPush b => Sys2Proof.Machine.execFifoPush b s
  | .fifoPop => Sys2Proof.Machine.execFifoPop s
  | .fifoEmpty => Sys2Proof.Machine.execFifoEmpty s
  | .fifoFull => Sys2Proof.Machine.execFifoFull s
  | .fifoRcount => Sys2Proof.Machine.execFifoRcount s
  | .fifoWcount => Sys2Proof.Machine.execFifoWcount s
  | .fifoOvfcnt => Sys2Proof.Machine.execFifoOvfcnt s
  | .fifoOvfclr => Sys2Proof.Machine.execFifoOvfclr s
  | .fifoUnflag => Sys2Proof.Machine.execFifoUnflag s
  | .fifoUnfclr => Sys2Proof.Machine.execFifoUnfclr s
  | .pwmSet ch level => Sys2Proof.Machine.execPwmSet ch level s
  | .pwmGet ch => Sys2Proof.Machine.execPwmGet ch s
  | .pwmPower => Sys2Proof.Machine.execPwmPower s
  | .relaySet unlock => Sys2Proof.Machine.execRelaySet unlock s
  | .relayGet => Sys2Proof.Machine.execRelayGet s
  | .tonePitch pitch => Sys2Proof.Machine.execTonePitch pitch s
  | .toneGetpitch => Sys2Proof.Machine.execToneGetpitch s
  | .toneInit => Sys2Proof.Machine.execToneInit s
  | .toneOn => Sys2Proof.Machine.execToneOn s
  | .toneOff => Sys2Proof.Machine.execToneOff s
  | .toneStatus => Sys2Proof.Machine.execToneStatus s

end Sys2Proof.Machine
end

