-- ==== Sys2Proof/Machine/Agents.lean ====
section
/-! DEFINITION. One step of one agent (00_scope.md R12 to R15), and which agent steps next. -/
namespace Sys2Proof.Machine

/-- The agent that performs an event (00_scope.md R12). -/
def agentOf : Event → Agent
  | .op .w _ => .producer
  | .op .r _ => .controller
  | .syncW2R => .syncW2R
  | .syncR2W => .syncR2W
  | .pwmTb => .pwmTb
  | .toneTmr => .toneTmr
  | .reset => .env
  | .partialReset _ => .env

/-- The refusal of an op word at a port (00_scope.md R14, 60_exceptions.md R182). -/
def refuseWord (port : Port) (w : Word) : DecodeReject → Refusal
  | .reserved => .reserved port w
  | .wrongPort => .wrongPort port w

/-- An op word presented at a port: decoded there, and run or refused (30_encoding.md R98, R99). -/
def runWord (port : Port) (w : Word) (s : State) : Host.Outcome State Fault Refusal :=
  match decode s.cfg port w with
  | .ok i => exec i s
  | .error e => .refused (refuseWord port w e)

/-- One agent performs one of its steps atomically on the whole state (00_scope.md R13). -/
def runEvent (e : Event) (s : State) : Host.Outcome State Fault Refusal :=
  match e with
  | .op port w => runWord port w s
  | .syncW2R => .next s.syncW2R
  | .syncR2W => .next s.syncR2W
  | .pwmTb => .next s.pwmTb
  | .toneTmr => .next s.toneTmr
  | .reset => .next s.resetEvent
  | .partialReset d => .refused (.partialReset d)

/-- The event that happens next: the first of the schedule, or a free event where it lists none
(00_scope.md R13: the order is left open). -/
def nextEvent (s : State) : Event :=
  match s.pending with
  | [] => Config.freeEvent s.draws
  | e :: _ => e

/-- The state with its next event taken off the schedule, or one free value used. -/
def takeEvent (s : State) : State :=
  match s.pending with
  | [] => s.spendDraw
  | _ :: rest => { s with pending := rest }

/-- The next event happens. A state whose parameters are none of a legal block is refused
(00_scope.md R6). -/
def stepOnce (s : State) : Host.Outcome State Fault Refusal :=
  if s.cfg.Legal then runEvent (nextEvent s) (takeEvent s) else .refused .illegalConfig

/-- Present an op word so that it is the very next event, at the port that takes it. -/
def presentWord (s : State) (w : Word) : State :=
  { s with pending := .op (portOfWord s.cfg w) w :: s.pending }

end Sys2Proof.Machine
end

