-- ==== Sys2Proof/Machine/Step.lean ====
section
/-! DEFINITION. The step of the machine, and how a word of the opcode table is placed so that the very
next step runs it. -/
namespace Sys2Proof.Machine

/-- One step: the next event happens (00_scope.md R13, R14). -/
def step (s : State) : Host.Outcome State Fault Refusal := stepOnce s

/-- `s` with the op word of `nbits` bits presented next at its port (log entry 2). -/
def State.withFetchWord (s : State) (nbits w : Nat) : State :=
  presentWord s (BitVec.ofNat 32 (w % 2 ^ nbits))

end Sys2Proof.Machine
end

