-- ==== Sys2Proof/Machine/Assembler.lean ====
section
/-! DEFINITION. The assembly text of an op and the pseudo-ops (30_encoding.md R102, R103). It is outside
the machine: no step reads it. -/
namespace Sys2Proof.Machine

/-! ### Pseudo-ops (30_encoding.md R103) -/

/-- The level `MAX`, meaning `PWM_MAX` (30_encoding.md R102). -/
def maxLevel (p : Params) : Half := BitVec.ofNat 16 p.pwmMax

/-- `PWM.ON ch` expands to `PWM.SET ch, 0`. -/
def pseudoPwmOn (ch : Channel) : Instr := .pwmSet ch 0#16

/-- `PWM.OFF ch` expands to `PWM.SET ch, MAX`. -/
def pseudoPwmOff (p : Params) (ch : Channel) : Instr := .pwmSet ch (maxLevel p)

/-- `RELAY.UNLOCK` expands to `RELAY.SET 1`. -/
def pseudoRelayUnlock : Instr := .relaySet true

/-- `RELAY.LOCK` expands to `RELAY.SET 0`. -/
def pseudoRelayLock : Instr := .relaySet false

/-! ### Text -/

/-- The text without its leading spaces. -/
def dropSpaces : List Char → List Char
  | [] => []
  | c :: cs => if c = ' ' then dropSpaces cs else c :: cs

/-- The text without leading and trailing spaces. -/
def trimSpaces (cs : List Char) : List Char := (dropSpaces (dropSpaces cs).reverse).reverse

/-- The text before the first `c`, and the text after it where there is one. -/
def cutAt (c : Char) : List Char → List Char × Option (List Char)
  | [] => ([], none)
  | x :: xs => if x = c then ([], some xs) else (x :: (cutAt c xs).1, (cutAt c xs).2)

/-- The value of a digit in base 16 or below. -/
def digitValue (c : Char) : Option Nat :=
  if 48 ≤ c.toNat ∧ c.toNat ≤ 57 then some (c.toNat - 48)
  else if 97 ≤ c.toNat ∧ c.toNat ≤ 102 then some (c.toNat - 87)
  else if 65 ≤ c.toNat ∧ c.toNat ≤ 70 then some (c.toNat - 55)
  else none

/-- The digits after a number read so far. -/
def readDigits (base : Nat) : Nat → List Char → Option Nat
  | n, [] => some n
  | n, c :: cs =>
    match digitValue c with
    | some d => if d < base then readDigits base (n * base + d) cs else none
    | none => none

/-- At least one digit. -/
def readNumeral (base : Nat) : List Char → Option Nat
  | [] => none
  | c :: cs => readDigits base 0 (c :: cs)

/-- A decimal or `0x` number (30_encoding.md R102). -/
def readNumber : List Char → Option Nat
  | '0' :: 'x' :: ds => readNumeral 16 ds
  | ds => readNumeral 10 ds

/-- The operand `b`: a number or a character literal, which denotes its ASCII byte (00_scope.md R17). -/
def readByteOperand (cs : List Char) : Option Nat :=
  match cs with
  | ['\'', '\\', 'n', '\''] => some 10
  | ['\'', c, '\''] => if c.toNat < 128 then some c.toNat else none
  | ds => readNumber ds

/-- The operand `ch`: 0, 1 or 2 (30_encoding.md R102). -/
def readChannel (cs : List Char) : Option Channel :=
  match readNumber cs with
  | some 0 => some .ch0
  | some 1 => some .ch1
  | some 2 => some .ch2
  | _ => none

/-- The operand `l`: `0..PWM_MAX`, or `MAX` (30_encoding.md R102). -/
def readLevel (p : Params) (cs : List Char) : Option Half :=
  if cs = ['M', 'A', 'X'] then some (maxLevel p)
  else match readNumber cs with
    | some n => if n ≤ p.pwmMax then some (BitVec.ofNat 16 n) else none
    | none => none

/-- `PWM.SET ch, l` -/
def readPwmSet (p : Params) (cs : List Char) : Option Instr :=
  match cutAt ',' cs with
  | (ch, some l) =>
    match readChannel (trimSpaces ch), readLevel p (trimSpaces l) with
    | some c, some v => some (.pwmSet c v)
    | _, _ => none
  | (_, none) => none

/-- An op without operands. -/
def readBare (i : Instr) (cs : List Char) : Option Instr := if cs = [] then some i else none

/-- The op of a mnemonic and its operand text. An operand out of range is an error (30_encoding.md
R102), which `none` stands for. Mnemonics are case-sensitive. -/
def readOp (p : Params) (mnemonic : String) (cs : List Char) : Option Instr :=
  match mnemonic with
  | "FIFO.PUSH" => (readByteOperand cs).bind fun n => if n ≤ 255 then some (.fifoPush (BitVec.ofNat 8 n)) else none
  | "FIFO.POP" => readBare .fifoPop cs
  | "FIFO.EMPTY" => readBare .fifoEmpty cs
  | "FIFO.FULL" => readBare .fifoFull cs
  | "FIFO.RCOUNT" => readBare .fifoRcount cs
  | "FIFO.WCOUNT" => readBare .fifoWcount cs
  | "FIFO.OVFCNT" => readBare .fifoOvfcnt cs
  | "FIFO.OVFCLR" => readBare .fifoOvfclr cs
  | "FIFO.UNFLAG" => readBare .fifoUnflag cs
  | "FIFO.UNFCLR" => readBare .fifoUnfclr cs
  | "PWM.SET" => readPwmSet p cs
  | "PWM.GET" => (readChannel cs).map .pwmGet
  | "PWM.POWER" => readBare .pwmPower cs
  | "RELAY.SET" => (readNumber cs).bind fun n => if n ≤ 1 then some (.relaySet (n == 1)) else none
  | "RELAY.GET" => readBare .relayGet cs
  | "TONE.PITCH" => (readNumber cs).bind fun n => if n < 2 ^ p.pitchW then some (.tonePitch (BitVec.ofNat 16 n)) else none
  | "TONE.GETPITCH" => readBare .toneGetpitch cs
  | "TONE.INIT" => readBare .toneInit cs
  | "TONE.ON" => readBare .toneOn cs
  | "TONE.OFF" => readBare .toneOff cs
  | "TONE.STATUS" => readBare .toneStatus cs
  | "PWM.ON" => (readChannel cs).map pseudoPwmOn
  | "PWM.OFF" => (readChannel cs).map (pseudoPwmOff p)
  | "RELAY.UNLOCK" => readBare pseudoRelayUnlock cs
  | "RELAY.LOCK" => readBare pseudoRelayLock cs
  | _ => none

/-- The op word of a line `MNEMONIC [operand]` (30_encoding.md R102), or `none`: an assembler error, and
no word is emitted. -/
def assemble (p : Params) (line : String) : Option Word :=
  match cutAt ' ' (trimSpaces line.toList) with
  | (m, rest) => (readOp p (String.ofList m) (trimSpaces (rest.getD []))).map encode

end Sys2Proof.Machine
end

