-- ==== Sys2Proof/Machine/Run.lean ====
section
/-! DEFINITION. What is left after an event whether it is refused or not (60_exceptions.md R182), runs
of several events, and the run of the machine step by step. -/
namespace Sys2Proof.Machine

/-- The state after an event: its next state, or the marked state a refused step leaves. -/
def afterEvent (e : Event) (s : State) : State :=
  match runEvent e s with
  | .next t => t
  | .refused r => s.markRefused r
  | .fault f => nomatch f

/-- The state after a list of events, in order. -/
def afterEvents : List Event → State → State
  | [], s => s
  | e :: es, s => afterEvents es (afterEvent e s)

/-- The state after a step: its next state, or the marked state a refused step leaves. Runs that go on
past a refusal are runs of `advance`; `step` itself answers the refusal with its reason. -/
def advance (s : State) : State :=
  match step s with
  | .next t => t
  | .refused r => (takeEvent s).markRefused r
  | .fault f => nomatch f

/-- `k` steps of `advance`. -/
def advanceBy : Nat → State → State
  | 0, s => s
  | k + 1, s => advanceBy k (advance s)

end Sys2Proof.Machine
end

