-- ==== Sys2Proof/Machine/Cycle.lean ====
section
/-! DEFINITION. One clock cycle of each domain as the signals of 00_scope.md R11 show it, and the events
it stands for, in the order of 70_reset_and_hazards.md R202. -/
namespace Sys2Proof.Machine

/-- One `wclk` cycle. -/
structure WCycle where
  /-- `rst` -/
  rst : Bool
  /-- `w_op` where `w_valid` is 1 -/
  op : Option Word
  /-- The `SYNC_R2W` register updates in this cycle. -/
  sync : Bool
deriving DecidableEq, Repr

/-- One `rclk` cycle. -/
structure RCycle where
  /-- `rst` -/
  rst : Bool
  /-- `r_op` where `r_valid` is 1 -/
  op : Option Word
  /-- `pwm_tick` -/
  pwmTick : Bool
  /-- `tone_tick` -/
  toneTick : Bool
  /-- The `SYNC_W2R` register updates in this cycle. -/
  sync : Bool
deriving DecidableEq, Repr

/-- The event of a presented op word, if one is presented. -/
def opEvents (port : Port) : Option Word → List Event
  | some w => [.op port w]
  | none => []

/-- An event that happens in the cycle if its signal is 1. -/
def tickEvents (tick : Bool) (e : Event) : List Event := if tick then [e] else []

/-- The events of a `wclk` cycle: the op before the `SYNC_R2W` update (R202). Where reset is asserted
every other event of the cycle is lost (R200). -/
def WCycle.events (c : WCycle) : List Event :=
  if c.rst then [.reset] else opEvents .w c.op ++ tickEvents c.sync .syncR2W

/-- The events of an `rclk` cycle: the op, then `PWM_TB`, then `TONE_TMR`, and the op before the
`SYNC_W2R` update (R202). Where reset is asserted every other event of the cycle is lost (R200). -/
def RCycle.events (c : RCycle) : List Event :=
  if c.rst then [.reset]
  else opEvents .r c.op ++ tickEvents c.pwmTick .pwmTb ++ tickEvents c.toneTick .toneTmr ++
    tickEvents c.sync .syncW2R

/-- The state after a `wclk` cycle. -/
def WCycle.after (c : WCycle) (s : State) : State := afterEvents c.events s

/-- The state after an `rclk` cycle. -/
def RCycle.after (c : RCycle) (s : State) : State := afterEvents c.events s

/-- The signal `w_result` of a cycle: the result word of the op accepted in it, and 0 in a cycle that
returns none (30_encoding.md R93). -/
def WCycle.result (c : WCycle) (s : State) : Word :=
  if c.rst || c.op.isNone then 0#32 else (c.after s).wResult.getD 0#32

/-- The signal `r_result` of a cycle (30_encoding.md R93). -/
def RCycle.result (c : RCycle) (s : State) : Word :=
  if c.rst || c.op.isNone then 0#32 else (c.after s).rResult.getD 0#32

/-- A cycle's events put at the head of the schedule, so that the next steps perform them. -/
def State.schedule (s : State) (es : List Event) : State := { s with pending := es ++ s.pending }

end Sys2Proof.Machine
end

