-- ==== Sys2Proof/Machine/Errors.lean ====
section
/-! DEFINITION. The error conditions, their codes and what raises them (60_exceptions.md R181, R185). -/
namespace Sys2Proof.Machine

/-- The error conditions (60_exceptions.md R181). -/
inductive ErrorCondition where
  | overflow
  | popWhenEmpty
  | pitchUnset
  | reserved
  | wrongPort
  | partialReset
deriving DecidableEq, Repr

/-- How a model treats a condition (60_exceptions.md R181, column "model class"). -/
inductive ErrorClass where
  | normalStep
  | violation
  | refusal
deriving DecidableEq, Repr

/-- The code of a condition (60_exceptions.md R181). -/
def ErrorCondition.code : ErrorCondition → Nat
  | .overflow => 1
  | .popWhenEmpty => 2
  | .pitchUnset => 3
  | .reserved => 4
  | .wrongPort => 5
  | .partialReset => 6

/-- The model class of a condition (60_exceptions.md R181). -/
def ErrorCondition.modelClass : ErrorCondition → ErrorClass
  | .overflow => .normalStep
  | .popWhenEmpty => .violation
  | .pitchUnset => .violation
  | .reserved => .refusal
  | .wrongPort => .refusal
  | .partialReset => .refusal

/-- The condition that a violation kind records (60_exceptions.md R181, R183). -/
def Viol.condition : Viol → ErrorCondition
  | .popWhenEmpty => .popWhenEmpty
  | .pitchUnset => .pitchUnset

/-- The condition that a refusal reports; an illegal configuration has no code (60_exceptions.md R181,
R182; log entry 4). -/
def Refusal.condition : Refusal → Option ErrorCondition
  | .reserved _ _ => some .reserved
  | .wrongPort _ _ => some .wrongPort
  | .partialReset _ => some .partialReset
  | _ => none

/-- The condition an op raises in a state, if any (60_exceptions.md R181). -/
def raisedByOp (i : Instr) (s : State) : Option ErrorCondition :=
  match i with
  | .fifoPush _ => if s.full then some .overflow else none
  | .fifoPop => if s.rcount = 0 then some .popWhenEmpty else none
  | .fifoEmpty => none
  | .fifoFull => none
  | .fifoRcount => none
  | .fifoWcount => none
  | .fifoOvfcnt => none
  | .fifoOvfclr => none
  | .fifoUnflag => none
  | .fifoUnfclr => none
  | .pwmSet _ _ => none
  | .pwmGet _ => none
  | .pwmPower => none
  | .relaySet _ => none
  | .relayGet => none
  | .tonePitch _ => none
  | .toneGetpitch => none
  | .toneInit => none
  | .toneOn => if !s.armed && !s.pitchSet then some .pitchUnset else none
  | .toneOff => none
  | .toneStatus => none

/-- The condition an event raises in a state; at most one (60_exceptions.md R185). -/
def raisedBy (e : Event) (s : State) : Option ErrorCondition :=
  match e with
  | .op port w =>
    match decode s.cfg port w with
    | .ok i => raisedByOp i s
    | .error .reserved => some .reserved
    | .error .wrongPort => some .wrongPort
  | .partialReset _ => some .partialReset
  | .syncW2R => none
  | .syncR2W => none
  | .pwmTb => none
  | .toneTmr => none
  | .reset => none

end Sys2Proof.Machine
end

