-- ==== Sys2Proof/Machine/Schedule.lean ====
section
/-! DEFINITION. Schedules without end and weak fairness (00_scope.md R13, R16). A schedule is no part of
the state: a claim that something eventually happens takes a fair one as its premise. -/
namespace Sys2Proof.Machine

/-- An order of steps without end: the event of every step (00_scope.md R13). -/
abbrev Schedule := Nat → Event

/-- The first `n` events of a schedule. -/
def Schedule.upTo (sched : Schedule) (n : Nat) : List Event := (List.range n).map sched

/-- The state after the first `n` events of a schedule. -/
def Schedule.stateAt (sched : Schedule) (s : State) (n : Nat) : State := afterEvents (sched.upTo n) s

/-- The agent is enabled: it has a step with a next state (00_scope.md R13). `ENV` is never one that must
step: its reset is an input that the outside may leave alone (00_scope.md R11; log entry 23). -/
def State.Enables (s : State) (a : Agent) : Prop :=
  a ≠ .env ∧ ∃ e t, agentOf e = a ∧ runEvent e s = .next t

/-- The agent, if it stays enabled, is eventually scheduled (00_scope.md R16). -/
def Schedule.FairTo (sched : Schedule) (s : State) (a : Agent) : Prop :=
  ∀ n, (∀ k, n ≤ k → (sched.stateAt s k).Enables a) → ∃ k, n ≤ k ∧ agentOf (sched k) = a

/-- Weak fairness: every agent that stays enabled is eventually scheduled (00_scope.md R16). -/
def Schedule.WeaklyFair (sched : Schedule) (s : State) : Prop := ∀ a, sched.FairTo s a

/-- The schedule that the steps of the machine from `s` perform: what `State.pending` lists, and free
events after it (00_scope.md R13; log entry 1). -/
def State.performed (s : State) : Schedule := fun k => nextEvent (advanceBy k s)

end Sys2Proof.Machine
end

