-- ==== Sys2Proof/Safety.lean ====
section
/-! DEFINITION. The invariant of the block, and the traces claims speak of: the bytes accepted, dropped
and returned by a list of events (10_state.md R44, 20_memory.md R77, R80, 40_fifo.md R122). -/
namespace Sys2Proof.Machine

/-! ### The invariant -/

/-- Every register fits its width (10_state.md R32 to R50). -/
abbrev State.WidthsOk (s : State) : Prop :=
  s.wbin < 2 ^ s.cfg.ptrW ∧ s.wgray < 2 ^ s.cfg.ptrW ∧ s.wqRgray < 2 ^ s.cfg.ptrW ∧
    s.rbin < 2 ^ s.cfg.ptrW ∧ s.rgray < 2 ^ s.cfg.ptrW ∧ s.rqWgray < 2 ^ s.cfg.ptrW ∧
    s.ovf < 2 ^ s.cfg.ovfW ∧
    s.level.ch0 < 2 ^ s.cfg.pwmW ∧ s.level.ch1 < 2 ^ s.cfg.pwmW ∧ s.level.ch2 < 2 ^ s.cfg.pwmW ∧
    s.pitch < 2 ^ s.cfg.pitchW ∧ s.pact < 2 ^ s.cfg.pitchW

/-- The Gray copies follow the pointers and the views bound the true count (40_fifo.md R122, 10_state.md
R33, R37, R44). -/
abbrev State.PointersOk (s : State) : Prop :=
  s.wgray = gray s.wbin ∧ s.rgray = gray s.rbin ∧
    s.rcount ≤ s.count ∧ s.count ≤ s.wcount ∧ s.wcount ≤ s.cfg.depth

/-- The storage is in canonical form, has no slot at N or above, and every slot that holds a byte of the
FIFO has been written (10_state.md R40, R41). -/
abbrev State.StorageOk (s : State) : Prop :=
  s.mem.wf ∧ (∀ c ∈ s.mem, c.1 < s.cfg.depth) ∧
    ∀ k < s.count, (s.mem.read ((s.rbin + k) % s.cfg.depth)).isSome

/-- The time base never holds `PWM_MAX` (10_state.md R46). -/
abbrev State.PwmOk (s : State) : Prop := s.pwmCnt < s.cfg.pwmMax

/-- The tone counter never exceeds `2^PITCH_W - 2`, and with `LATCH` it stays below the effective pitch
while armed (42_tone.md R169). A disarmed generator is in the known-off state (R165, R167), and the
pitch is 0 until one is written (10_state.md R48, R62). -/
abbrev State.ToneOk (s : State) : Prop :=
  s.tcnt + 2 ≤ 2 ^ s.cfg.pitchW ∧
    (s.cfg.pitchMode = .latch → s.armed = true → s.tcnt < max s.pact 1) ∧
    (s.armed = false → s.tcnt = 0 ∧ s.drive = s.cfg.toneIdle) ∧
    (s.pitchSet = false → s.pitch = 0)

/-- The invariant of the block: it holds in the power-on state and every step keeps it. -/
abbrev State.Inv (s : State) : Prop :=
  s.cfg.Legal ∧ s.WidthsOk ∧ s.PointersOk ∧ s.StorageOk ∧ s.PwmOk ∧ s.ToneOk

/-! ### Words of an op -/

/-- The op has exactly one word, `w`, and only `port` takes it (30_encoding.md R96): match, mask and port
of an op in one sentence. -/
def encodedAs (p : Params) (i : Instr) (port : Port) (w : Word) : Prop :=
  ∀ q v, decode p q v = .ok i ↔ q = port ∧ v = w

/-! ### Traces -/

/-- The event presents, in the state `s`, a word that its port decodes to the op `i`. -/
def spells (e : Event) (s : State) (i : Instr) : Prop :=
  ∃ port w, e = .op port w ∧ decode s.cfg port w = .ok i

/-- The byte that an event offers and the FIFO accepts (20_memory.md R77). -/
def acceptedBy (e : Event) (s : State) : List Byte :=
  match e with
  | .op port w =>
    match decode s.cfg port w with
    | .ok (.fifoPush b) => if s.full then [] else [b]
    | _ => []
  | _ => []

/-- How many bytes an event offers to the FIFO (20_memory.md R80). -/
def offeredBy (e : Event) (s : State) : Nat :=
  match e with
  | .op port w =>
    match decode s.cfg port w with
    | .ok (.fifoPush _) => 1
    | _ => 0
  | _ => 0

/-- The byte that an event returns from storage, read off its result word: `valid` is bit 8 and the byte
is bits 7:0 (30_encoding.md R93, 20_memory.md R77). -/
def returnedBy (e : Event) (s : State) : List Byte :=
  match e with
  | .op port w =>
    match decode s.cfg port w with
    | .ok .fifoPop =>
      match (afterEvent e s).rResult with
      | some r => if r.getLsbD 8 then [r.setWidth 8] else []
      | none => []
    | _ => []
  | _ => []

/-- Does the event clear the overflow counter? -/
def clearsOvf (e : Event) (s : State) : Bool :=
  match e with
  | .op port w =>
    match decode s.cfg port w with
    | .ok .fifoOvfclr => true
    | _ => false
  | .reset => true
  | _ => false

/-- The bytes accepted along a list of events, in order. -/
def accepted : List Event → State → List Byte
  | [], _ => []
  | e :: es, s => acceptedBy e s ++ accepted es (afterEvent e s)

/-- The bytes returned from storage along a list of events, in order. -/
def returned : List Event → State → List Byte
  | [], _ => []
  | e :: es, s => returnedBy e s ++ returned es (afterEvent e s)

/-- How many bytes are offered along a list of events. -/
def offered : List Event → State → Nat
  | [], _ => 0
  | e :: es, s => offeredBy e s + offered es (afterEvent e s)

/-- Does some event of the list clear the overflow counter? -/
def clearsOvfIn : List Event → State → Bool
  | [], _ => false
  | e :: es, s => clearsOvf e s || clearsOvfIn es (afterEvent e s)

/-! ### What each side can see (10_state.md R57, 20_memory.md R81) -/

/-- The two states agree on everything of the read domain, the storage, the ghost records an R-port op
reads or writes, and the count of free values. -/
structure SameReadSide (s t : State) : Prop where
  cfg : s.cfg = t.cfg
  rbin : s.rbin = t.rbin
  rgray : s.rgray = t.rgray
  rqWgray : s.rqWgray = t.rqWgray
  unf : s.unf = t.unf
  mem : s.mem = t.mem
  level : s.level = t.level
  pwmCnt : s.pwmCnt = t.pwmCnt
  relayOpen : s.relayOpen = t.relayOpen
  pitch : s.pitch = t.pitch
  pact : s.pact = t.pact
  tcnt : s.tcnt = t.tcnt
  armed : s.armed = t.armed
  drive : s.drive = t.drive
  viol : s.viol = t.viol
  pitchSet : s.pitchSet = t.pitchSet
  draws : s.draws = t.draws

/-- The two states agree on everything of the write domain and the storage. -/
structure SameWriteSide (s t : State) : Prop where
  cfg : s.cfg = t.cfg
  wbin : s.wbin = t.wbin
  wgray : s.wgray = t.wgray
  wqRgray : s.wqRgray = t.wqRgray
  ovf : s.ovf = t.ovf
  mem : s.mem = t.mem

end Sys2Proof.Machine
end

