-- ==== Sys2Proof/Certificates/Slice0/Obligations.lean ====
section
/-! DEFINITION. The statements for the provers, each citing the rules of spec/ it comes from. An equation
`exec i s = .next t` with `t` written as an update of `s` says the op's result, that it completes, and
its frame at once: every field of the state not named in the update, and with it every byte of the
storage, is as before. -/

open Sys2Proof Sys2Proof.Machine

/-! ### Encoding -/

/-- 30_encoding.md R90, R91, R94, R96, R97: the word of a well-formed op decodes, at the op's port, to
that op, whatever its operands and whatever the parameters. -/
def Obligations.DecodeUndoesEncode : Prop :=
  ∀ (p : Params) (i : Instr), p.Legal → i.wellFormed p = true → decode p i.port (encode i) = .ok i

/-- 30_encoding.md R92, R96, R98: a word that decodes is the word of the op it decodes to, so every op
has one word and no must-be-zero bit is ignored. -/
def Obligations.EncodeUndoesDecode : Prop :=
  ∀ (p : Params) (port : Port) (w : Word) (i : Instr), decode p port w = .ok i →
    encode i = w ∧ i.wellFormed p = true ∧ i.port = port

/-- 30_encoding.md R98: the decoder is the table lookup by match, mask and extra constraint, at most one
row matches, a row of the other port is `WrongPort`, and no row at all is `Reserved`. -/
def Obligations.DecoderFollowsOpcodeMap : Prop :=
  ∀ (p : Params) (port : Port) (w : Word), p.Legal →
    (∀ r₁ ∈ opRows p, ∀ r₂ ∈ opRows p, r₁.hits w = true → r₂.hits w = true → r₁ = r₂) ∧
    (∀ row ∈ opRows p, row.hits w = true → row.port = port →
      ∃ i, decode p port w = .ok i ∧ i.mnemonic = row.mnemonic) ∧
    (∀ row ∈ opRows p, row.hits w = true → row.port ≠ port → decode p port w = .error .wrongPort) ∧
    ((∀ row ∈ opRows p, row.hits w = false) → decode p port w = .error .reserved)

/-- 30_encoding.md R97: the five W-port ops; every other op is an R-port op. -/
def Obligations.WPortOpsAreTheFive : Prop :=
  ∀ i : Instr, i.port = .w ↔
    (∃ b, i = .fifoPush b) ∨ i = .fifoFull ∨ i = .fifoWcount ∨ i = .fifoOvfcnt ∨ i = .fifoOvfclr

/-- 30_encoding.md R94: every operand is an unsigned slice of the word, not scaled or shifted; the
channel is the whole `sel` field, so that `sel[7:2]` is 0 and `ch` is not 3. -/
def Obligations.OperandsAreUnsignedSlices : Prop :=
  ∀ (p : Params) (port : Port) (w : Word) (i : Instr), p.Legal → decode p port w = .ok i →
    (∀ b, i = .fifoPush b → b.toNat = w.toNat % 2 ^ 8) ∧
    (∀ ch l, i = .pwmSet ch l →
      l.toNat = w.toNat % 2 ^ p.pwmW ∧ ch.sel.toNat = w.toNat / 2 ^ 16 % 2 ^ 8) ∧
    (∀ ch, i = .pwmGet ch → ch.sel.toNat = w.toNat / 2 ^ 16 % 2 ^ 8) ∧
    (∀ u, i = .relaySet u → u.toNat = w.toNat % 2) ∧
    (∀ q, i = .tonePitch q → q.toNat = w.toNat % 2 ^ p.pitchW)

/-- 30_encoding.md R91, R92, R99: unlisted opcodes, a 1 in a must-be-zero field and channel 3 are
reserved, at either port. -/
def Obligations.ReservedWordsAreRefused : Prop :=
  ∀ (p : Params) (port : Port) (op sel : Byte) (data : Half),
    (op.toNat < 0x10 ∨ (0x1A ≤ op.toNat ∧ op.toNat ≤ 0x1F) ∨ (0x25 ≤ op.toNat ∧ op.toNat ≤ 0x2F) ∨
        0x36 ≤ op.toNat ∨
      (sel ≠ 0#8 ∧ op ≠ 0x20#8 ∧ op ≠ 0x21#8) ∨ 3 ≤ sel.toNat ∨
      (op = 0x10#8 ∧ 2 ^ 8 ≤ data.toNat) ∨ (op = 0x20#8 ∧ 2 ^ p.pwmW ≤ data.toNat) ∨
      (op = 0x23#8 ∧ 2 ≤ data.toNat) ∨ (op = 0x30#8 ∧ 2 ^ p.pitchW ≤ data.toNat) ∨
      (data ≠ 0#16 ∧ op ≠ 0x10#8 ∧ op ≠ 0x20#8 ∧ op ≠ 0x23#8 ∧ op ≠ 0x30#8)) →
    decode p port (makeWord op sel data) = .error .reserved

/-- 95_test_vectors.md D-1, D-3, D-7, D-12, D-14, D-16, D-19, D-22, D-24, D-27, D-29, with the default
parameters: words written out from 30_encoding.md R96. -/
def Obligations.VectorWordsDecode : Prop :=
  decode Params.default .w 0x10000041#32 = .ok (.fifoPush 0x41#8) ∧
  decode Params.default .r 0x10000041#32 = .error .wrongPort ∧
  decode Params.default .w 0x11000000#32 = .error .wrongPort ∧
  decode Params.default .r 0x20020080#32 = .ok (.pwmSet .ch2 0x80#16) ∧
  decode Params.default .r 0x20030000#32 = .error .reserved ∧
  decode Params.default .r 0x20000100#32 = .error .reserved ∧
  decode Params.default .r 0x21010000#32 = .ok (.pwmGet .ch1) ∧
  decode Params.default .r 0x23000001#32 = .ok (.relaySet true) ∧
  decode Params.default .r 0x3000FFFF#32 = .ok (.tonePitch 0xFFFF#16) ∧
  decode Params.default .r 0x35000000#32 = .ok .toneStatus ∧
  decode Params.default .w 0xFFFFFFFF#32 = .error .reserved

/-- 30_encoding.md R102: the assembler emits no word that the decoder would refuse. -/
def Obligations.AssembledWordsDecode : Prop :=
  ∀ (p : Params) (line : String) (w : Word), p.Legal → assemble p line = some w →
    ∃ i : Instr, decode p i.port w = .ok i

/-! ### The step -/

/-- 00_scope.md R13, R14 and log entry 1: when the next event presents a word that its port decodes, the
step is the op, on the state with that event taken off the schedule. Nothing else happens around it. -/
def Obligations.StepRunsTheDecodedOp : Prop :=
  ∀ (s : State) (port : Port) (w : Word) (rest : List Event) (i : Instr), s.cfg.Legal →
    s.pending = .op port w :: rest → decode s.cfg port w = .ok i →
    step s = exec i { s with pending := rest }

/-- 00_scope.md R14, 30_encoding.md R98, R99, 60_exceptions.md R182: a word that its port refuses stops
the step with the reason, and what a run that goes on carries is the unchanged hardware state with the
ghost mark set and result word 0. That the reason keeps port and word, and that a run may go on by
`advance`, are the model's choices (log entry 9). -/
def Obligations.StepRefusesUndecodedWords : Prop :=
  ∀ (s : State) (port : Port) (w : Word) (rest : List Event), s.cfg.Legal →
    s.pending = .op port w :: rest →
    (decode s.cfg port w = .error .reserved → step s = .refused (.reserved port w)) ∧
    (decode s.cfg port w = .error .wrongPort → step s = .refused (.wrongPort port w)) ∧
    (∀ d, decode s.cfg port w = .error d →
      advance s = match port with
        | .w => { s with pending := rest, refused := true, wResult := some 0#32 }
        | .r => { s with pending := rest, refused := true, rResult := some 0#32 })

/-- 40_fifo.md R120, R121: each synchroniser step copies the Gray pointer and writes nothing else. -/
def Obligations.SynchroniserStepsCopyGrayPointers : Prop :=
  ∀ (s : State) (rest : List Event), s.cfg.Legal →
    (s.pending = .syncW2R :: rest → step s = .next { s with pending := rest, rqWgray := s.wgray }) ∧
    (s.pending = .syncR2W :: rest → step s = .next { s with pending := rest, wqRgray := s.rgray })

/-- 41_pwm.md R149: the time base advances by one and wraps from `PWM_MAX - 1` to 0, so it never holds
`PWM_MAX`; the step writes nothing else. -/
def Obligations.PwmTickAdvancesTimeBase : Prop :=
  ∀ (s : State) (rest : List Event), s.cfg.Legal → s.pending = .pwmTb :: rest →
    step s = .next { s with
      pending := rest
      pwmCnt := if s.pwmCnt + 1 = 2 ^ s.cfg.pwmW - 1 then 0 else s.pwmCnt + 1 } ∧
    ∀ t, step s = .next t → s.pwmCnt < 2 ^ s.cfg.pwmW - 1 → t.pwmCnt < 2 ^ s.cfg.pwmW - 1

/-- 42_tone.md R169: disarmed, the tick changes nothing; armed, it toggles the drive line and restarts
the count when `tcnt + 1 >= P`, and counts otherwise; the count stays within its bounds. -/
def Obligations.ToneTickCountsAndToggles : Prop :=
  ∀ (s : State) (rest : List Event) (P : Nat), s.cfg.Legal → s.pending = .toneTmr :: rest →
    P = (if s.cfg.pitchMode = .latch then s.pact else s.pitch) →
    (s.armed = false → step s = .next { s with pending := rest }) ∧
    (s.armed = true → s.tcnt + 1 ≥ P →
      step s = .next { s with pending := rest, drive := !s.drive, tcnt := 0 }) ∧
    (s.armed = true → s.tcnt + 1 < P → step s = .next { s with pending := rest, tcnt := s.tcnt + 1 }) ∧
    (s.Inv → ∀ t, step s = .next t → t.tcnt ≤ 2 ^ s.cfg.pitchW - 2 ∧
      (s.cfg.pitchMode = .latch → s.armed = true → t.tcnt < max s.pact 1))

/-- 70_reset_and_hazards.md R200 with the table of 10_state.md R59: the reset event loads every hardware
field but the storage and clears `pitch_set`; `viol` and `refused` survive, and in a cycle with reset
asserted an op, tick or synchroniser update is lost. That no result word stands after reset, and that
the schedule and the count of free values go on, are the model's choices (log entry 20). -/
def Obligations.ResetEventLoadsTable : Prop :=
  ∀ (s : State) (rest : List Event), s.cfg.Legal → s.pending = .reset :: rest →
    step s = .next {
      cfg := s.cfg, wbin := 0, wgray := 0, wqRgray := 0, ovf := 0, rbin := 0, rgray := 0, rqWgray := 0
      unf := false, mem := s.mem
      level := ⟨2 ^ s.cfg.pwmW - 1, 2 ^ s.cfg.pwmW - 1, s.cfg.toneOffLevel⟩
      pwmCnt := 0, relayOpen := false, pitch := 0, pact := 0, tcnt := 0, armed := false
      drive := s.cfg.toneIdle, viol := s.viol, refused := s.refused, pitchSet := false
      wResult := none, rResult := none, draws := s.draws, pending := rest } ∧
    (∀ op sync, WCycle.after ⟨true, op, sync⟩ s = afterEvent .reset s) ∧
    (∀ op pwm tone sync, RCycle.after ⟨true, op, pwm, tone, sync⟩ s = afterEvent .reset s)

/-- 70_reset_and_hazards.md R201: a reset of one domain only is refused. -/
def Obligations.PartialResetIsRefused : Prop :=
  ∀ (s : State) (rest : List Event) (d : Domain), s.cfg.Legal → s.pending = .partialReset d :: rest →
    step s = .refused (.partialReset d) ∧ advance s = { s with pending := rest, refused := true }

/-- 00_scope.md R5, R6, R7 and log entry 4: the depth is `2^ADDR_W`, and a block whose parameters are
out of range is refused. -/
def Obligations.IllegalParametersAreRefused : Prop :=
  ∀ s : State, s.cfg.depth = 2 ^ s.cfg.addrW ∧
    (s.cfg.addrW = 0 ∨ 15 < s.cfg.addrW ∨ s.cfg.ovfW = 0 ∨ 32 < s.cfg.ovfW ∨ s.cfg.pwmW < 2 ∨
        16 < s.cfg.pwmW ∨ s.cfg.pitchW = 0 ∨ 16 < s.cfg.pitchW ∨
        2 ^ s.cfg.pwmW - 1 < s.cfg.toneOffLevel →
      step s = .refused .illegalConfig)

/-- 00_scope.md R13 and log entry 1: with no event listed, the step is that of some event, which the
model does not fix. -/
def Obligations.EmptyScheduleTakesFreeEvent : Prop :=
  ∀ s : State, s.cfg.Legal → s.pending = [] →
    ∃ e : Event, step s = runEvent e { s with draws := s.draws + 1 }

/-- 70_reset_and_hazards.md R202 and 30_encoding.md R93: in one cycle the op comes first if one is
presented, then `PWM_TB`, then `TONE_TMR`, and the synchroniser update after the op; the result signal is
that of the op, and 0 in a cycle without one. -/
def Obligations.CycleAppliesOpThenTicks : Prop :=
  ∀ (s : State) (op : Option Word) (pwm tone sync : Bool),
    (let s₁ := match op with | some w => afterEvent (.op .r w) s | none => s
     let s₂ := if pwm then afterEvent .pwmTb s₁ else s₁
     let s₃ := if tone then afterEvent .toneTmr s₂ else s₂
     RCycle.after ⟨false, op, pwm, tone, sync⟩ s = (if sync then afterEvent .syncW2R s₃ else s₃) ∧
     RCycle.result ⟨false, op, pwm, tone, sync⟩ s =
       match op with | some _ => s₁.rResult.getD 0#32 | none => 0#32) ∧
    (let s₁ := match op with | some w => afterEvent (.op .w w) s | none => s
     WCycle.after ⟨false, op, sync⟩ s = (if sync then afterEvent .syncR2W s₁ else s₁) ∧
     WCycle.result ⟨false, op, sync⟩ s =
       match op with | some _ => s₁.wResult.getD 0#32 | none => 0#32)

/-- 00_scope.md R13, 60_exceptions.md R180: every op, every internal step and the reset event is enabled
in every state, and no step faults. -/
def Obligations.EveryOpAndInternalStepIsEnabled : Prop :=
  ∀ s : State,
    (∀ i : Instr, ∃ t, exec i s = .next t) ∧
    (∀ e : Event, (∀ port w, e ≠ .op port w) → (∀ d, e ≠ .partialReset d) →
      ∃ t, runEvent e s = .next t) ∧
    (∀ f, step s ≠ .fault f)

/-! ### Reset and invariants -/

/-- 10_state.md R59: the state when the model starts, for any parameters, and the values derived from
it. That no slot is listed, no result word stands and no event is listed are the model's choices (log
entries 2, 6, 8). -/
def Obligations.PowerOnState : Prop :=
  ∀ p : Params, p.Legal →
    let s := State.resetWith p
    s.wbin = 0 ∧ s.wgray = 0 ∧ s.wqRgray = 0 ∧ s.ovf = 0 ∧ s.rbin = 0 ∧ s.rgray = 0 ∧ s.rqWgray = 0 ∧
    s.unf = false ∧ s.level = ⟨2 ^ p.pwmW - 1, 2 ^ p.pwmW - 1, p.toneOffLevel⟩ ∧ s.pwmCnt = 0 ∧
    s.relayOpen = false ∧ s.pitch = 0 ∧ s.pact = 0 ∧ s.tcnt = 0 ∧ s.armed = false ∧
    s.drive = p.toneIdle ∧ (∀ k, s.viol.has k = false) ∧ s.refused = false ∧ s.pitchSet = false ∧
    s.count = 0 ∧ s.rcount = 0 ∧ s.wcount = 0 ∧ s.empty = true ∧ s.full = false ∧
    (p.toneOffLevel = 2 ^ p.pwmW - 1 → s.chOutBits = 0b111#3) ∧ s.relayN = true ∧ s.piezo = p.toneIdle ∧
    s.mem = [] ∧ s.wResult = none ∧ s.rResult = none ∧ s.pending = []

/-- 10_state.md R59 and 40_fifo.md R122: the invariant holds when the model starts, for any parameters. -/
def Obligations.InvariantHoldsAtPowerOn : Prop :=
  ∀ p : Params, p.Legal → (State.resetWith p).Inv

/-- 40_fifo.md R122, 10_state.md R33, R37, R40, R44, R46, 42_tone.md R169: every step of every agent keeps
the invariant (widths, Gray copies, view bounds, storage, time base, tone counter), and so does a
refused one. -/
def Obligations.EveryStepKeepsInvariant : Prop :=
  ∀ s : State, s.Inv → (∀ t, step s = .next t → t.Inv) ∧ (advance s).Inv

/-- 10_state.md R44: every step keeps `0 <= rcount <= count <= wcount <= N`. -/
def Obligations.ViewsBoundTheTrueCount : Prop :=
  ∀ s t : State, s.Inv → step s = .next t →
    t.rcount ≤ t.count ∧ t.count ≤ t.wcount ∧ t.wcount ≤ 2 ^ t.cfg.addrW

/-- 10_state.md R60, R61 and 00_scope.md R5: no step removes a violation kind, clears the refused mark or
changes a parameter, and a refused step sets the mark. -/
def Obligations.GhostRecordsPersist : Prop :=
  ∀ s : State,
    (∀ k, s.viol.has k = true → (advance s).viol.has k = true) ∧
    (s.refused = true → (advance s).refused = true) ∧
    (∀ r, step s = .refused r → (advance s).refused = true) ∧
    (advance s).cfg = s.cfg

/-! ### FIFO unit -/

/-- 10_state.md R42: the producer view, `full`, and the Gray form of `full`. -/
def Obligations.ProducerViewAndFull : Prop :=
  ∀ s : State,
    (s.wcount : Int) = ((s.wbin : Int) - bin s.cfg.ptrW s.wqRgray) % 2 ^ (s.cfg.addrW + 1) ∧
    (s.full = true ↔ s.wcount = 2 ^ s.cfg.addrW) ∧
    (s.Inv → (s.full = true ↔ s.wgray = s.wqRgray ^^^ (3 <<< (s.cfg.ptrW - 2))))

/-- 10_state.md R43: the consumer view, and the flag `empty` in both its forms. -/
def Obligations.ConsumerViewAndEmpty : Prop :=
  ∀ s : State,
    (s.rcount : Int) = ((bin s.cfg.ptrW s.rqWgray : Int) - s.rbin) % 2 ^ (s.cfg.addrW + 1) ∧
    (s.empty = true ↔ s.rqWgray = s.rgray) ∧
    (s.Inv → (s.empty = true ↔ s.rcount = 0))

/-- 00_scope.md R18: `bin` bit by bit. The top bit is that of `g`, and each lower bit is its upper
neighbour XOR the bit of `g`. On `w` bits `bin` is the inverse of `gray`. -/
def Obligations.BinaryFromGrayBits : Prop :=
  ∀ (w g i : Nat),
    (g < 2 ^ (w + 1) → (bin (w + 1) g).testBit w = g.testBit w ∧
      (i < w → (bin (w + 1) g).testBit i = ((bin (w + 1) g).testBit (i + 1) ^^ g.testBit i))) ∧
    (g < 2 ^ w → bin w (gray g) = g ∧ gray (bin w g) = g ∧ gray g < 2 ^ w ∧ bin w g < 2 ^ w)

/-- 40_fifo.md R123: an increment changes exactly one bit of a Gray-coded pointer, also where the pointer
wraps. -/
def Obligations.GrayIncrementChangesOneBit : Prop :=
  ∀ (w b : Nat), 0 < w → b < 2 ^ w → ∃ k < w, gray b ^^^ gray (addW w b 1) = 2 ^ k

/-- 40_fifo.md R110: with room in the producer view the byte is written to the `wbin` slot and the write
pointer advances; with none it is dropped and counted, up to saturation. Every other slot of the
storage reads as before. The word and the port are the rule's. -/
def Obligations.PushAcceptsOrDropsNewest : Prop :=
  ∀ (s : State) (b : Byte), s.mem.wf →
    encodedAs s.cfg (.fifoPush b) .w (BitVec.ofNat 32 (0x10000000 + b.toNat)) ∧
    (s.wcount ≠ 2 ^ s.cfg.addrW → ∃ m : Memory,
      exec (.fifoPush b) s = .next { s with
        mem := m
        wbin := (s.wbin + 1) % 2 ^ (s.cfg.addrW + 1)
        wgray := gray ((s.wbin + 1) % 2 ^ (s.cfg.addrW + 1))
        wResult := none } ∧
      m.wf ∧ m.read (s.wbin % 2 ^ s.cfg.addrW) = some b ∧
      ∀ a, a ≠ s.wbin % 2 ^ s.cfg.addrW → m.read a = s.mem.read a) ∧
    (s.wcount = 2 ^ s.cfg.addrW →
      exec (.fifoPush b) s = .next { s with
        ovf := if s.ovf < 2 ^ s.cfg.ovfW - 1 then s.ovf + 1 else s.ovf
        wResult := none })

/-- 40_fifo.md R111: with a byte in the consumer view the pop returns the byte of the `rbin` slot with
`valid = 1` and advances the read pointer; with none it returns an unspecified byte with `valid = 0`,
sets `unf`, records `PopWhenEmpty` and moves no pointer. The storage is unchanged either way. The model's
own count of free values may move with the draw (log entry 7), and the statement says nothing of it. -/
def Obligations.PopTakesOldestOrUnderflows : Prop :=
  ∀ s : State, encodedAs s.cfg .fifoPop .r 0x11000000#32 ∧
    (s.rcount ≠ 0 → ∃ x : Byte, (∀ b, s.mem.read (s.rbin % 2 ^ s.cfg.addrW) = some b → x = b) ∧
      exec .fifoPop s = .next { s with
        rbin := (s.rbin + 1) % 2 ^ (s.cfg.addrW + 1)
        rgray := gray ((s.rbin + 1) % 2 ^ (s.cfg.addrW + 1))
        rResult := some (0x100#32 ||| x.setWidth 32) }) ∧
    (s.rcount = 0 → ∃ (x : Byte) (n : Nat),
      exec .fifoPop s = .next { s with
        unf := true
        viol := { s.viol with popWhenEmpty := true }
        draws := n
        rResult := some (x.setWidth 32) })

/-- 40_fifo.md R112 to R116, R118, 30_encoding.md R93: the six FIFO queries return their value and change
nothing else. In every state that meets the invariant, `FIFO.RCOUNT` is a lower bound on the true count
and `FIFO.WCOUNT` an upper bound. -/
def Obligations.FifoQueriesReturnTheirValue : Prop :=
  ∀ s : State,
    encodedAs s.cfg .fifoEmpty .r 0x12000000#32 ∧ encodedAs s.cfg .fifoFull .w 0x13000000#32 ∧
    encodedAs s.cfg .fifoRcount .r 0x14000000#32 ∧ encodedAs s.cfg .fifoWcount .w 0x15000000#32 ∧
    encodedAs s.cfg .fifoOvfcnt .w 0x16000000#32 ∧ encodedAs s.cfg .fifoUnflag .r 0x18000000#32 ∧
    exec .fifoEmpty s = .next { s with rResult := some (if s.rqWgray = s.rgray then 1#32 else 0#32) } ∧
    exec .fifoFull s = .next { s with
      wResult := some (if s.wcount = 2 ^ s.cfg.addrW then 1#32 else 0#32) } ∧
    exec .fifoRcount s = .next { s with rResult := some (BitVec.ofNat 32 s.rcount) } ∧
    exec .fifoWcount s = .next { s with wResult := some (BitVec.ofNat 32 s.wcount) } ∧
    exec .fifoOvfcnt s = .next { s with wResult := some (BitVec.ofNat 32 s.ovf) } ∧
    exec .fifoUnflag s = .next { s with rResult := some (if s.unf then 1#32 else 0#32) } ∧
    (s.Inv → s.rcount ≤ s.count ∧ s.count ≤ s.wcount)

/-- 40_fifo.md R117, R119: the two clears write their flag, return no result word, and leave the FIFO and
the violation record alone. -/
def Obligations.FifoClearsWriteTheirFlagOnly : Prop :=
  ∀ s : State,
    encodedAs s.cfg .fifoOvfclr .w 0x17000000#32 ∧ encodedAs s.cfg .fifoUnfclr .r 0x19000000#32 ∧
    exec .fifoOvfclr s = .next { s with ovf := 0, wResult := none } ∧
    exec .fifoUnfclr s = .next { s with unf := false, rResult := none }

/-- 20_memory.md R77: the bytes returned from storage, followed by the bytes still held, are the bytes
held at first followed by the bytes accepted, in order; so from an empty FIFO, as after a reset, what is
returned is an initial segment of what was accepted, at every point of every execution. -/
def Obligations.FifoDeliversInReceiptOrder : Prop :=
  ∀ (s : State) (es : List Event), s.Inv → .reset ∉ es →
    returned es s ++ (afterEvents es s).contents = s.contents ++ accepted es s ∧
    (s.contents = [] → returned es s <+: accepted es s) ∧
    (afterEvent .reset s).contents = []

/-- 20_memory.md R80: every byte offered is accepted or dropped, and the drops are the increase of `ovf`
while it has not saturated and nothing clears it. -/
def Obligations.DropsAreCounted : Prop :=
  ∀ (s : State) (es : List Event), clearsOvfIn es s = false →
    (afterEvents es s).ovf < 2 ^ s.cfg.ovfW - 1 →
    offered es s + s.ovf = (accepted es s).length + (afterEvents es s).ovf

/-- 20_memory.md R78: with no `SYNC_W2R`, the consumer is returned bytes out of its view only; after one,
its view is the true count. -/
def Obligations.PushIsVisibleOnlyAfterSync : Prop :=
  ∀ (s : State) (es : List Event), s.Inv → .reset ∉ es →
    (.syncW2R ∉ es → (returned es s).length + (afterEvents es s).rcount = s.rcount) ∧
    (afterEvent .syncW2R s).rcount = s.count

/-- 20_memory.md R79: with no `SYNC_R2W`, the producer's accepted bytes fill the room of its view only;
after one, its view is the true count. -/
def Obligations.SlotIsReusedOnlyAfterSync : Prop :=
  ∀ (s : State) (es : List Event), s.Inv → .reset ∉ es →
    (.syncR2W ∉ es → (accepted es s).length + s.wcount = (afterEvents es s).wcount) ∧
    (afterEvent .syncR2W s).wcount = s.count

/-- 40_fifo.md R112, R113: after `FIFO.EMPTY` returned 0, and whatever happens then but a `FIFO.POP` or a
reset, the next `FIFO.POP` returns a byte from storage; after `FIFO.FULL` returned 0, and whatever happens
then but a `FIFO.PUSH`, the next `FIFO.PUSH` is accepted. -/
def Obligations.PolledFlagsAreReliable : Prop :=
  ∀ (s t : State) (es : List Event), s.Inv →
    (exec .fifoEmpty s = .next t → t.rResult = some 0#32 → .reset ∉ es →
      (∀ e ∈ es, ¬ spells e s .fifoPop) →
      ∃ b, returnedBy (.op .r 0x11000000#32) (afterEvents es t) = [b]) ∧
    (exec .fifoFull s = .next t → t.wResult = some 0#32 →
      (∀ e ∈ es, ∀ b, ¬ spells e s (.fifoPush b)) →
      ∀ b : Byte, acceptedBy (.op .w (BitVec.ofNat 32 (0x10000000 + b.toNat))) (afterEvents es t) = [b])

/-! ### PWM unit and relay -/

/-- 41_pwm.md R144: the level register of the channel takes `data[PWM_W-1:0]` and its output follows in
the same step; the other channels, and every other field, are unchanged. -/
def Obligations.PwmSetWritesOneLevel : Prop :=
  ∀ (s : State) (ch : Channel) (l : Half),
    (∀ q w, decode s.cfg q w = .ok (.pwmSet ch l) ↔ q = .r ∧ l.toNat < 2 ^ s.cfg.pwmW ∧
      w = BitVec.ofNat 32 (0x20000000 + 0x10000 * ch.sel.toNat + l.toNat)) ∧
    ∃ v : Levels,
    exec (.pwmSet ch l) s = .next { s with level := v, rResult := none } ∧
    v.get ch = l.toNat % 2 ^ s.cfg.pwmW ∧ (∀ c, c ≠ ch → v.get c = s.level.get c) ∧
    State.chOut { s with level := v, rResult := none } ch =
      decide (s.pwmCnt < l.toNat % 2 ^ s.cfg.pwmW)

/-- 41_pwm.md R145, R148: the PWM and relay readbacks return the register, not the pin, and change nothing
else. -/
def Obligations.PwmAndRelayReadbacks : Prop :=
  ∀ s : State,
    encodedAs s.cfg (.pwmGet .ch0) .r 0x21000000#32 ∧ encodedAs s.cfg (.pwmGet .ch1) .r 0x21010000#32 ∧
    encodedAs s.cfg (.pwmGet .ch2) .r 0x21020000#32 ∧ encodedAs s.cfg .relayGet .r 0x24000000#32 ∧
    exec (.pwmGet .ch0) s = .next { s with rResult := some (BitVec.ofNat 32 s.level.ch0) } ∧
    exec (.pwmGet .ch1) s = .next { s with rResult := some (BitVec.ofNat 32 s.level.ch1) } ∧
    exec (.pwmGet .ch2) s = .next { s with rResult := some (BitVec.ofNat 32 s.level.ch2) } ∧
    exec .relayGet s = .next { s with rResult := some (if s.relayOpen then 1#32 else 0#32) }

/-- 41_pwm.md R146: power mode sets the three levels and changes nothing else. -/
def Obligations.PowerModeSetsIdleLevels : Prop :=
  ∀ s : State, encodedAs s.cfg .pwmPower .r 0x22000000#32 ∧
    exec .pwmPower s = .next { s with
      level := ⟨2 ^ s.cfg.pwmW - 1, 2 ^ s.cfg.pwmW - 1, s.cfg.toneOffLevel⟩
      rResult := none }

/-- 41_pwm.md R141, R147: the line is the relay register inverted in every state, so that it follows the
register in the step that writes the bit there. -/
def Obligations.RelaySetDrivesTheLine : Prop :=
  ∀ (s : State) (u : Bool), s.relayN = !s.relayOpen ∧
    encodedAs s.cfg (.relaySet u) .r (BitVec.ofNat 32 (0x23000000 + u.toNat)) ∧
    exec (.relaySet u) s = .next { s with relayOpen := u, rResult := none } ∧
    State.relayN { s with relayOpen := u, rResult := none } = !u

/-- 10_state.md R47, 41_pwm.md R141, R147: only `RELAY.SET` and reset move the relay; no tick, queue op or
other op does. -/
def Obligations.OnlyRelaySetAndResetMoveRelay : Prop :=
  ∀ (e : Event) (s : State), (afterEvent e s).relayOpen ≠ s.relayOpen →
    (e = .reset ∧ (afterEvent e s).relayOpen = false) ∨
    (∃ u, spells e s (.relaySet u) ∧ (afterEvent e s).relayOpen = u)

/-- 41_pwm.md R140, R143: over any frame of `PWM_MAX` ticks a channel is inactive for exactly `level` of
them; level 0 is fully active and `PWM_MAX` fully inactive; a frame ends where it began. -/
def Obligations.ChannelDutyOverAFrame : Prop :=
  ∀ (s : State) (ch : Channel), s.Inv →
    (s.chOut ch = true ↔ s.pwmCnt < s.level.get ch) ∧
    ((List.range (2 ^ s.cfg.pwmW - 1)).countP fun k =>
      (afterEvents (List.replicate k .pwmTb) s).chOut ch) = s.level.get ch ∧
    (∀ k, s.level.get ch = 0 → (afterEvents (List.replicate k .pwmTb) s).chOut ch = false) ∧
    (∀ k, s.level.get ch = 2 ^ s.cfg.pwmW - 1 →
      (afterEvents (List.replicate k .pwmTb) s).chOut ch = true) ∧
    afterEvents (List.replicate (2 ^ s.cfg.pwmW - 1) .pwmTb) s = s

/-! ### Tone unit -/

/-- 42_tone.md R162, R163: the whole pitch register is written in one step, and the ghost mark is set. The
effective pitch is `pact` with `LATCH` and `pitch` with `LIVE`.
While armed, the effective pitch stays with `LATCH` and becomes the new pitch with `LIVE`, where the next
tick toggles if the count is already there. -/
def Obligations.PitchWriteAndEffectivePitch : Prop :=
  ∀ (s : State) (q : Half),
    s.effPitch = (if s.cfg.pitchMode = .latch then s.pact else s.pitch) ∧
    (∀ port w, decode s.cfg port w = .ok (.tonePitch q) ↔ port = .r ∧ q.toNat < 2 ^ s.cfg.pitchW ∧
      w = BitVec.ofNat 32 (0x30000000 + q.toNat)) ∧
    ∃ t, exec (.tonePitch q) s = .next t ∧
      t = { s with pitch := q.toNat % 2 ^ s.cfg.pitchW, pitchSet := true, rResult := none } ∧
      (s.cfg.pitchMode = .latch → t.effPitch = s.effPitch) ∧
      (s.cfg.pitchMode = .live → t.effPitch = q.toNat % 2 ^ s.cfg.pitchW ∧
        (s.armed = true → q.toNat % 2 ^ s.cfg.pitchW ≤ s.tcnt + 1 →
          (afterEvent .toneTmr t).drive = !s.drive))

/-- 42_tone.md R164, R168: the tone readbacks return the pitch register, and `{drive, armed}`, and change
nothing else. -/
def Obligations.ToneReadbacks : Prop :=
  ∀ s : State,
    encodedAs s.cfg .toneGetpitch .r 0x31000000#32 ∧ encodedAs s.cfg .toneStatus .r 0x35000000#32 ∧
    exec .toneGetpitch s = .next { s with rResult := some (BitVec.ofNat 32 s.pitch) } ∧
    exec .toneStatus s = .next { s with
      rResult := some (BitVec.ofNat 32 (2 * s.drive.toNat + s.armed.toNat)) }

/-- 42_tone.md R165, R167: `TONE.INIT` and `TONE.OFF` both disarm the generator and put the drive line at
`TONE_IDLE`; the pitch registers are unchanged. -/
def Obligations.ToneInitAndOffDisarm : Prop :=
  ∀ s : State,
    encodedAs s.cfg .toneInit .r 0x32000000#32 ∧ encodedAs s.cfg .toneOff .r 0x34000000#32 ∧
    exec .toneInit s = .next { s with
      armed := false, tcnt := 0, drive := s.cfg.toneIdle, rResult := none } ∧
    exec .toneOff s = .next { s with
      armed := false, tcnt := 0, drive := s.cfg.toneIdle, rResult := none }

/-- 42_tone.md R166: disarmed, `TONE.ON` arms and latches the pitch, recording `PitchUnset` when no pitch
was written since reset; armed, it has no effect. -/
def Obligations.ToneOnArmsOnce : Prop :=
  ∀ s : State, encodedAs s.cfg .toneOn .r 0x33000000#32 ∧
    (s.armed = false → s.pitchSet = true → exec .toneOn s = .next { s with
      armed := true, tcnt := 0, pact := s.pitch, rResult := none }) ∧
    (s.armed = false → s.pitchSet = false → exec .toneOn s = .next { s with
      armed := true, tcnt := 0, pact := s.pitch, viol := { s.viol with pitchUnset := true }
      rResult := none }) ∧
    (s.armed = true → exec .toneOn s = .next { s with rResult := none })

/-- 42_tone.md R161, R166: from arming, the drive line toggles once every `max(P, 1)` ticks and not before,
and after two such half-periods the unit is where it began. -/
def Obligations.ToneHalfPeriod : Prop :=
  ∀ s : State, s.armed = true → s.tcnt = 0 →
    (∀ k, k < max s.effPitch 1 →
      afterEvents (List.replicate k .toneTmr) s = { s with tcnt := k }) ∧
    afterEvents (List.replicate (max s.effPitch 1) .toneTmr) s = { s with drive := !s.drive } ∧
    afterEvents (List.replicate (2 * max s.effPitch 1) .toneTmr) s = s

/-! ### Whole-machine rules -/

/-- 20_memory.md R81: steps of the write side leave every read-domain field alone, steps of the read side
leave every write-domain field and the storage alone. -/
def Obligations.DomainsWriteOnlyTheirOwn : Prop :=
  ∀ (s : State) (w : Word),
    (∀ e : Event, e = .op .w w ∨ e = .syncR2W → SameReadSide { afterEvent e s with mem := s.mem } s) ∧
    (∀ e : Event, e = .op .r w ∨ e = .syncW2R ∨ e = .pwmTb ∨ e = .toneTmr →
      SameWriteSide (afterEvent e s) s)

/-- 10_state.md R42, R43, R57 and 20_memory.md R81: what an op of one port returns and writes does not
depend on the other domain's fields, only on its own domain, the storage and the synchronised view. The
byte that the spec leaves unspecified, that of an empty pop or of a slot never written, is compared with
no other (log entries 6 and 7); of an empty pop, only `valid = 0` is stated. -/
def Obligations.PortsDependOnTheirOwnDomain : Prop :=
  ∀ (i : Instr) (s u s' u' : State), exec i s = .next s' → exec i u = .next u' →
    (i.port = .r → SameReadSide s u → SameReadSide s' u' ∧
      (i ≠ .fifoPop ∨ (s.rcount ≠ 0 ∧ (s.mem.read (s.rbin % 2 ^ s.cfg.addrW)).isSome) →
        s'.rResult = u'.rResult) ∧
      (i = .fifoPop → s.rcount = 0 →
        s'.rResult.map (·.getLsbD 8) = some false ∧ u'.rResult.map (·.getLsbD 8) = some false)) ∧
    (i.port = .w → SameWriteSide s u → SameWriteSide s' u' ∧ s'.wResult = u'.wResult)

/-- 10_state.md R56, R35, R39, R51: the flags `unf`, `ovf` and `armed` are set and cleared by the listed
ops and reset, and by nothing else. -/
def Obligations.FlagsChangeOnlyAsListed : Prop :=
  ∀ (e : Event) (s t : State), t = afterEvent e s →
    (t.unf ≠ s.unf → (t.unf = true ∧ spells e s .fifoPop ∧ s.rcount = 0) ∨
      (t.unf = false ∧ (spells e s .fifoUnfclr ∨ e = .reset))) ∧
    (t.ovf ≠ s.ovf → (t.ovf = s.ovf + 1 ∧ s.wcount = 2 ^ s.cfg.addrW ∧ ∃ b, spells e s (.fifoPush b)) ∨
      (t.ovf = 0 ∧ (spells e s .fifoOvfclr ∨ e = .reset))) ∧
    (t.armed ≠ s.armed → (t.armed = true ∧ spells e s .toneOn) ∨
      (t.armed = false ∧ (spells e s .toneOff ∨ spells e s .toneInit ∨ e = .reset)))

/-- 20_memory.md R74: every op but `FIFO.PUSH` and `FIFO.POP` is idempotent. -/
def Obligations.OpsAreIdempotentButPushAndPop : Prop :=
  ∀ (i : Instr) (s t : State), (∀ b, i ≠ .fifoPush b) → i ≠ .fifoPop →
    exec i s = .next t → exec i t = .next t

/-- 60_exceptions.md R181, R182, R183, R185: an event raises at most one condition; it is refused exactly
when that condition is of the refusal class, and it adds a violation kind exactly when that kind is the
condition; overflow is a normal step. -/
def Obligations.ErrorConditionsAreRecorded : Prop :=
  ∀ (e : Event) (s : State),
    ((∃ r, runEvent e s = .refused r) ↔ ∃ c, raisedBy e s = some c ∧ c.modelClass = .refusal) ∧
    (∀ r, runEvent e s = .refused r → r.condition = raisedBy e s) ∧
    (∀ k : Viol, (afterEvent e s).viol.has k = true ↔
      s.viol.has k = true ∨ raisedBy e s = some k.condition) ∧
    (raisedBy e s = some .overflow ↔ s.wcount = 2 ^ s.cfg.addrW ∧ ∃ b, spells e s (.fifoPush b))

/-! ### Schedules and weak fairness -/

/-- 00_scope.md R13 and log entries 1 and 9: a step performs its next event, so a listed schedule is
performed event by event, and what follows it in the list is still to come. -/
def Obligations.StepsPerformTheSchedule : Prop :=
  ∀ (s : State) (es rest : List Event), s.cfg.Legal →
    advance s = afterEvent (nextEvent s) (takeEvent s) ∧
    advanceBy es.length { s with pending := es ++ rest } = { afterEvents es s with pending := rest } ∧
    ∀ k (h : k < es.length), State.performed { s with pending := es ++ rest } k = es[k]

/-- 00_scope.md R13, R16: every agent but `ENV` is enabled in every state, so weak fairness says that each
of them is scheduled again and again. That `ENV` is left out is log entry 23. -/
def Obligations.WeakFairnessIsInfinitelyOften : Prop :=
  ∀ (sched : Schedule) (s : State),
    (∀ (a : Agent) (u : State), a ≠ .env → u.Enables a) ∧
    (sched.WeaklyFair s ↔ ∀ a, a ≠ .env → ∀ n, ∃ k, n ≤ k ∧ agentOf (sched k) = a)

/-- 20_memory.md R84 with 00_scope.md R16: with no reset, and a schedule fair to `SYNC_W2R`, every byte
accepted by any time is, from some later time on, returned or in the consumer's view. -/
def Obligations.AcceptedBytesBecomePoppable : Prop :=
  ∀ (sched : Schedule) (s : State), s.Inv → (∀ k, sched k ≠ .reset) → sched.FairTo s .syncW2R →
    ∀ n, ∃ m, n ≤ m ∧ ∀ k, m ≤ k →
      s.count + (accepted (sched.upTo n) s).length ≤
        (returned (sched.upTo k) s).length + (sched.stateAt s k).rcount

/-- 20_memory.md R84 with 00_scope.md R16: with no reset, and a schedule fair to `SYNC_R2W`, every slot
freed by any time is, from some later time on, room in the producer's view or filled again. -/
def Obligations.FreedRoomBecomesVisible : Prop :=
  ∀ (sched : Schedule) (s : State), s.Inv → (∀ k, sched k ≠ .reset) → sched.FairTo s .syncR2W →
    ∀ n, ∃ m, n ≤ m ∧ ∀ k, m ≤ k →
      (sched.stateAt s k).wcount + (returned (sched.upTo n) s).length ≤
        s.count + (accepted (sched.upTo k) s).length
end

