-- ==== Sys2Proof/Laws/State.lean ====
section
/-! SUPPORT. What each update of the state does to each field, so that no proof unfolds a record update. -/
namespace Sys2Proof.Machine

/-! ### `State.answer` (30_encoding.md R93) -/

@[simp] theorem State.answer_cfg (s : State) (p : Port) (r : Option Word) : (s.answer p r).cfg = s.cfg := by cases p <;> rfl
@[simp] theorem State.answer_wbin (s : State) (p : Port) (r : Option Word) : (s.answer p r).wbin = s.wbin := by cases p <;> rfl
@[simp] theorem State.answer_wgray (s : State) (p : Port) (r : Option Word) : (s.answer p r).wgray = s.wgray := by cases p <;> rfl
@[simp] theorem State.answer_wqRgray (s : State) (p : Port) (r : Option Word) : (s.answer p r).wqRgray = s.wqRgray := by cases p <;> rfl
@[simp] theorem State.answer_ovf (s : State) (p : Port) (r : Option Word) : (s.answer p r).ovf = s.ovf := by cases p <;> rfl
@[simp] theorem State.answer_rbin (s : State) (p : Port) (r : Option Word) : (s.answer p r).rbin = s.rbin := by cases p <;> rfl
@[simp] theorem State.answer_rgray (s : State) (p : Port) (r : Option Word) : (s.answer p r).rgray = s.rgray := by cases p <;> rfl
@[simp] theorem State.answer_rqWgray (s : State) (p : Port) (r : Option Word) : (s.answer p r).rqWgray = s.rqWgray := by cases p <;> rfl
@[simp] theorem State.answer_unf (s : State) (p : Port) (r : Option Word) : (s.answer p r).unf = s.unf := by cases p <;> rfl
@[simp] theorem State.answer_mem (s : State) (p : Port) (r : Option Word) : (s.answer p r).mem = s.mem := by cases p <;> rfl
@[simp] theorem State.answer_level (s : State) (p : Port) (r : Option Word) : (s.answer p r).level = s.level := by cases p <;> rfl
@[simp] theorem State.answer_pwmCnt (s : State) (p : Port) (r : Option Word) : (s.answer p r).pwmCnt = s.pwmCnt := by cases p <;> rfl
@[simp] theorem State.answer_relayOpen (s : State) (p : Port) (r : Option Word) : (s.answer p r).relayOpen = s.relayOpen := by cases p <;> rfl
@[simp] theorem State.answer_pitch (s : State) (p : Port) (r : Option Word) : (s.answer p r).pitch = s.pitch := by cases p <;> rfl
@[simp] theorem State.answer_pact (s : State) (p : Port) (r : Option Word) : (s.answer p r).pact = s.pact := by cases p <;> rfl
@[simp] theorem State.answer_tcnt (s : State) (p : Port) (r : Option Word) : (s.answer p r).tcnt = s.tcnt := by cases p <;> rfl
@[simp] theorem State.answer_armed (s : State) (p : Port) (r : Option Word) : (s.answer p r).armed = s.armed := by cases p <;> rfl
@[simp] theorem State.answer_drive (s : State) (p : Port) (r : Option Word) : (s.answer p r).drive = s.drive := by cases p <;> rfl
@[simp] theorem State.answer_viol (s : State) (p : Port) (r : Option Word) : (s.answer p r).viol = s.viol := by cases p <;> rfl
@[simp] theorem State.answer_refused (s : State) (p : Port) (r : Option Word) : (s.answer p r).refused = s.refused := by cases p <;> rfl
@[simp] theorem State.answer_pitchSet (s : State) (p : Port) (r : Option Word) : (s.answer p r).pitchSet = s.pitchSet := by cases p <;> rfl
@[simp] theorem State.answer_w_wResult (s : State) (r : Option Word) : (s.answer .w r).wResult = r := rfl
@[simp] theorem State.answer_r_wResult (s : State) (r : Option Word) : (s.answer .r r).wResult = s.wResult := rfl
@[simp] theorem State.answer_w_rResult (s : State) (r : Option Word) : (s.answer .w r).rResult = s.rResult := rfl
@[simp] theorem State.answer_r_rResult (s : State) (r : Option Word) : (s.answer .r r).rResult = r := rfl
@[simp] theorem State.answer_draws (s : State) (p : Port) (r : Option Word) : (s.answer p r).draws = s.draws := by cases p <;> rfl
@[simp] theorem State.answer_pending (s : State) (p : Port) (r : Option Word) : (s.answer p r).pending = s.pending := by cases p <;> rfl

/-! ### `State.recordViol` (00_scope.md R18) -/

@[simp] theorem State.recordViol_cfg (s : State) (k : Viol) : (s.recordViol k).cfg = s.cfg := rfl
@[simp] theorem State.recordViol_wbin (s : State) (k : Viol) : (s.recordViol k).wbin = s.wbin := rfl
@[simp] theorem State.recordViol_wgray (s : State) (k : Viol) : (s.recordViol k).wgray = s.wgray := rfl
@[simp] theorem State.recordViol_wqRgray (s : State) (k : Viol) : (s.recordViol k).wqRgray = s.wqRgray := rfl
@[simp] theorem State.recordViol_ovf (s : State) (k : Viol) : (s.recordViol k).ovf = s.ovf := rfl
@[simp] theorem State.recordViol_rbin (s : State) (k : Viol) : (s.recordViol k).rbin = s.rbin := rfl
@[simp] theorem State.recordViol_rgray (s : State) (k : Viol) : (s.recordViol k).rgray = s.rgray := rfl
@[simp] theorem State.recordViol_rqWgray (s : State) (k : Viol) : (s.recordViol k).rqWgray = s.rqWgray := rfl
@[simp] theorem State.recordViol_unf (s : State) (k : Viol) : (s.recordViol k).unf = s.unf := rfl
@[simp] theorem State.recordViol_mem (s : State) (k : Viol) : (s.recordViol k).mem = s.mem := rfl
@[simp] theorem State.recordViol_level (s : State) (k : Viol) : (s.recordViol k).level = s.level := rfl
@[simp] theorem State.recordViol_pwmCnt (s : State) (k : Viol) : (s.recordViol k).pwmCnt = s.pwmCnt := rfl
@[simp] theorem State.recordViol_relayOpen (s : State) (k : Viol) : (s.recordViol k).relayOpen = s.relayOpen := rfl
@[simp] theorem State.recordViol_pitch (s : State) (k : Viol) : (s.recordViol k).pitch = s.pitch := rfl
@[simp] theorem State.recordViol_pact (s : State) (k : Viol) : (s.recordViol k).pact = s.pact := rfl
@[simp] theorem State.recordViol_tcnt (s : State) (k : Viol) : (s.recordViol k).tcnt = s.tcnt := rfl
@[simp] theorem State.recordViol_armed (s : State) (k : Viol) : (s.recordViol k).armed = s.armed := rfl
@[simp] theorem State.recordViol_drive (s : State) (k : Viol) : (s.recordViol k).drive = s.drive := rfl
@[simp] theorem State.recordViol_viol (s : State) (k : Viol) : (s.recordViol k).viol = s.viol.insert k := rfl
@[simp] theorem State.recordViol_refused (s : State) (k : Viol) : (s.recordViol k).refused = s.refused := rfl
@[simp] theorem State.recordViol_pitchSet (s : State) (k : Viol) : (s.recordViol k).pitchSet = s.pitchSet := rfl
@[simp] theorem State.recordViol_wResult (s : State) (k : Viol) : (s.recordViol k).wResult = s.wResult := rfl
@[simp] theorem State.recordViol_rResult (s : State) (k : Viol) : (s.recordViol k).rResult = s.rResult := rfl
@[simp] theorem State.recordViol_draws (s : State) (k : Viol) : (s.recordViol k).draws = s.draws := rfl
@[simp] theorem State.recordViol_pending (s : State) (k : Viol) : (s.recordViol k).pending = s.pending := rfl

/-! ### `State.spendDraw` (00_scope.md R18) -/

@[simp] theorem State.spendDraw_cfg (s : State) : (s.spendDraw).cfg = s.cfg := rfl
@[simp] theorem State.spendDraw_wbin (s : State) : (s.spendDraw).wbin = s.wbin := rfl
@[simp] theorem State.spendDraw_wgray (s : State) : (s.spendDraw).wgray = s.wgray := rfl
@[simp] theorem State.spendDraw_wqRgray (s : State) : (s.spendDraw).wqRgray = s.wqRgray := rfl
@[simp] theorem State.spendDraw_ovf (s : State) : (s.spendDraw).ovf = s.ovf := rfl
@[simp] theorem State.spendDraw_rbin (s : State) : (s.spendDraw).rbin = s.rbin := rfl
@[simp] theorem State.spendDraw_rgray (s : State) : (s.spendDraw).rgray = s.rgray := rfl
@[simp] theorem State.spendDraw_rqWgray (s : State) : (s.spendDraw).rqWgray = s.rqWgray := rfl
@[simp] theorem State.spendDraw_unf (s : State) : (s.spendDraw).unf = s.unf := rfl
@[simp] theorem State.spendDraw_mem (s : State) : (s.spendDraw).mem = s.mem := rfl
@[simp] theorem State.spendDraw_level (s : State) : (s.spendDraw).level = s.level := rfl
@[simp] theorem State.spendDraw_pwmCnt (s : State) : (s.spendDraw).pwmCnt = s.pwmCnt := rfl
@[simp] theorem State.spendDraw_relayOpen (s : State) : (s.spendDraw).relayOpen = s.relayOpen := rfl
@[simp] theorem State.spendDraw_pitch (s : State) : (s.spendDraw).pitch = s.pitch := rfl
@[simp] theorem State.spendDraw_pact (s : State) : (s.spendDraw).pact = s.pact := rfl
@[simp] theorem State.spendDraw_tcnt (s : State) : (s.spendDraw).tcnt = s.tcnt := rfl
@[simp] theorem State.spendDraw_armed (s : State) : (s.spendDraw).armed = s.armed := rfl
@[simp] theorem State.spendDraw_drive (s : State) : (s.spendDraw).drive = s.drive := rfl
@[simp] theorem State.spendDraw_viol (s : State) : (s.spendDraw).viol = s.viol := rfl
@[simp] theorem State.spendDraw_refused (s : State) : (s.spendDraw).refused = s.refused := rfl
@[simp] theorem State.spendDraw_pitchSet (s : State) : (s.spendDraw).pitchSet = s.pitchSet := rfl
@[simp] theorem State.spendDraw_wResult (s : State) : (s.spendDraw).wResult = s.wResult := rfl
@[simp] theorem State.spendDraw_rResult (s : State) : (s.spendDraw).rResult = s.rResult := rfl
@[simp] theorem State.spendDraw_draws (s : State) : (s.spendDraw).draws = s.draws + 1 := rfl
@[simp] theorem State.spendDraw_pending (s : State) : (s.spendDraw).pending = s.pending := rfl

/-! ### `State.enqueue` (40_fifo.md R110) -/

@[simp] theorem State.enqueue_cfg (s : State) (b : Byte) : (s.enqueue b).cfg = s.cfg := rfl
@[simp] theorem State.enqueue_wbin (s : State) (b : Byte) : (s.enqueue b).wbin = addW s.cfg.ptrW s.wbin 1 := rfl
@[simp] theorem State.enqueue_wgray (s : State) (b : Byte) : (s.enqueue b).wgray = gray (addW s.cfg.ptrW s.wbin 1) := rfl
@[simp] theorem State.enqueue_wqRgray (s : State) (b : Byte) : (s.enqueue b).wqRgray = s.wqRgray := rfl
@[simp] theorem State.enqueue_ovf (s : State) (b : Byte) : (s.enqueue b).ovf = s.ovf := rfl
@[simp] theorem State.enqueue_rbin (s : State) (b : Byte) : (s.enqueue b).rbin = s.rbin := rfl
@[simp] theorem State.enqueue_rgray (s : State) (b : Byte) : (s.enqueue b).rgray = s.rgray := rfl
@[simp] theorem State.enqueue_rqWgray (s : State) (b : Byte) : (s.enqueue b).rqWgray = s.rqWgray := rfl
@[simp] theorem State.enqueue_unf (s : State) (b : Byte) : (s.enqueue b).unf = s.unf := rfl
@[simp] theorem State.enqueue_mem (s : State) (b : Byte) : (s.enqueue b).mem = s.mem.write (slotOf s.cfg s.wbin) b := rfl
@[simp] theorem State.enqueue_level (s : State) (b : Byte) : (s.enqueue b).level = s.level := rfl
@[simp] theorem State.enqueue_pwmCnt (s : State) (b : Byte) : (s.enqueue b).pwmCnt = s.pwmCnt := rfl
@[simp] theorem State.enqueue_relayOpen (s : State) (b : Byte) : (s.enqueue b).relayOpen = s.relayOpen := rfl
@[simp] theorem State.enqueue_pitch (s : State) (b : Byte) : (s.enqueue b).pitch = s.pitch := rfl
@[simp] theorem State.enqueue_pact (s : State) (b : Byte) : (s.enqueue b).pact = s.pact := rfl
@[simp] theorem State.enqueue_tcnt (s : State) (b : Byte) : (s.enqueue b).tcnt = s.tcnt := rfl
@[simp] theorem State.enqueue_armed (s : State) (b : Byte) : (s.enqueue b).armed = s.armed := rfl
@[simp] theorem State.enqueue_drive (s : State) (b : Byte) : (s.enqueue b).drive = s.drive := rfl
@[simp] theorem State.enqueue_viol (s : State) (b : Byte) : (s.enqueue b).viol = s.viol := rfl
@[simp] theorem State.enqueue_refused (s : State) (b : Byte) : (s.enqueue b).refused = s.refused := rfl
@[simp] theorem State.enqueue_pitchSet (s : State) (b : Byte) : (s.enqueue b).pitchSet = s.pitchSet := rfl
@[simp] theorem State.enqueue_wResult (s : State) (b : Byte) : (s.enqueue b).wResult = s.wResult := rfl
@[simp] theorem State.enqueue_rResult (s : State) (b : Byte) : (s.enqueue b).rResult = s.rResult := rfl
@[simp] theorem State.enqueue_draws (s : State) (b : Byte) : (s.enqueue b).draws = s.draws := rfl
@[simp] theorem State.enqueue_pending (s : State) (b : Byte) : (s.enqueue b).pending = s.pending := rfl

/-! ### `State.dropByte` (40_fifo.md R110) -/

@[simp] theorem State.dropByte_cfg (s : State) : (s.dropByte).cfg = s.cfg := rfl
@[simp] theorem State.dropByte_wbin (s : State) : (s.dropByte).wbin = s.wbin := rfl
@[simp] theorem State.dropByte_wgray (s : State) : (s.dropByte).wgray = s.wgray := rfl
@[simp] theorem State.dropByte_wqRgray (s : State) : (s.dropByte).wqRgray = s.wqRgray := rfl
@[simp] theorem State.dropByte_ovf (s : State) : (s.dropByte).ovf = if s.ovf < s.cfg.ovfMax then s.ovf + 1 else s.ovf := rfl
@[simp] theorem State.dropByte_rbin (s : State) : (s.dropByte).rbin = s.rbin := rfl
@[simp] theorem State.dropByte_rgray (s : State) : (s.dropByte).rgray = s.rgray := rfl
@[simp] theorem State.dropByte_rqWgray (s : State) : (s.dropByte).rqWgray = s.rqWgray := rfl
@[simp] theorem State.dropByte_unf (s : State) : (s.dropByte).unf = s.unf := rfl
@[simp] theorem State.dropByte_mem (s : State) : (s.dropByte).mem = s.mem := rfl
@[simp] theorem State.dropByte_level (s : State) : (s.dropByte).level = s.level := rfl
@[simp] theorem State.dropByte_pwmCnt (s : State) : (s.dropByte).pwmCnt = s.pwmCnt := rfl
@[simp] theorem State.dropByte_relayOpen (s : State) : (s.dropByte).relayOpen = s.relayOpen := rfl
@[simp] theorem State.dropByte_pitch (s : State) : (s.dropByte).pitch = s.pitch := rfl
@[simp] theorem State.dropByte_pact (s : State) : (s.dropByte).pact = s.pact := rfl
@[simp] theorem State.dropByte_tcnt (s : State) : (s.dropByte).tcnt = s.tcnt := rfl
@[simp] theorem State.dropByte_armed (s : State) : (s.dropByte).armed = s.armed := rfl
@[simp] theorem State.dropByte_drive (s : State) : (s.dropByte).drive = s.drive := rfl
@[simp] theorem State.dropByte_viol (s : State) : (s.dropByte).viol = s.viol := rfl
@[simp] theorem State.dropByte_refused (s : State) : (s.dropByte).refused = s.refused := rfl
@[simp] theorem State.dropByte_pitchSet (s : State) : (s.dropByte).pitchSet = s.pitchSet := rfl
@[simp] theorem State.dropByte_wResult (s : State) : (s.dropByte).wResult = s.wResult := rfl
@[simp] theorem State.dropByte_rResult (s : State) : (s.dropByte).rResult = s.rResult := rfl
@[simp] theorem State.dropByte_draws (s : State) : (s.dropByte).draws = s.draws := rfl
@[simp] theorem State.dropByte_pending (s : State) : (s.dropByte).pending = s.pending := rfl

/-! ### `State.dequeue` (40_fifo.md R111) -/

@[simp] theorem State.dequeue_cfg (s : State) : (s.dequeue).cfg = s.cfg := rfl
@[simp] theorem State.dequeue_wbin (s : State) : (s.dequeue).wbin = s.wbin := rfl
@[simp] theorem State.dequeue_wgray (s : State) : (s.dequeue).wgray = s.wgray := rfl
@[simp] theorem State.dequeue_wqRgray (s : State) : (s.dequeue).wqRgray = s.wqRgray := rfl
@[simp] theorem State.dequeue_ovf (s : State) : (s.dequeue).ovf = s.ovf := rfl
@[simp] theorem State.dequeue_rbin (s : State) : (s.dequeue).rbin = addW s.cfg.ptrW s.rbin 1 := rfl
@[simp] theorem State.dequeue_rgray (s : State) : (s.dequeue).rgray = gray (addW s.cfg.ptrW s.rbin 1) := rfl
@[simp] theorem State.dequeue_rqWgray (s : State) : (s.dequeue).rqWgray = s.rqWgray := rfl
@[simp] theorem State.dequeue_unf (s : State) : (s.dequeue).unf = s.unf := rfl
@[simp] theorem State.dequeue_mem (s : State) : (s.dequeue).mem = s.mem := rfl
@[simp] theorem State.dequeue_level (s : State) : (s.dequeue).level = s.level := rfl
@[simp] theorem State.dequeue_pwmCnt (s : State) : (s.dequeue).pwmCnt = s.pwmCnt := rfl
@[simp] theorem State.dequeue_relayOpen (s : State) : (s.dequeue).relayOpen = s.relayOpen := rfl
@[simp] theorem State.dequeue_pitch (s : State) : (s.dequeue).pitch = s.pitch := rfl
@[simp] theorem State.dequeue_pact (s : State) : (s.dequeue).pact = s.pact := rfl
@[simp] theorem State.dequeue_tcnt (s : State) : (s.dequeue).tcnt = s.tcnt := rfl
@[simp] theorem State.dequeue_armed (s : State) : (s.dequeue).armed = s.armed := rfl
@[simp] theorem State.dequeue_drive (s : State) : (s.dequeue).drive = s.drive := rfl
@[simp] theorem State.dequeue_viol (s : State) : (s.dequeue).viol = s.viol := rfl
@[simp] theorem State.dequeue_refused (s : State) : (s.dequeue).refused = s.refused := rfl
@[simp] theorem State.dequeue_pitchSet (s : State) : (s.dequeue).pitchSet = s.pitchSet := rfl
@[simp] theorem State.dequeue_wResult (s : State) : (s.dequeue).wResult = s.wResult := rfl
@[simp] theorem State.dequeue_rResult (s : State) : (s.dequeue).rResult = s.rResult := rfl
@[simp] theorem State.dequeue_draws (s : State) : (s.dequeue).draws = s.draws := rfl
@[simp] theorem State.dequeue_pending (s : State) : (s.dequeue).pending = s.pending := rfl

/-! ### `State.underflow` (40_fifo.md R111) -/

@[simp] theorem State.underflow_cfg (s : State) : (s.underflow).cfg = s.cfg := rfl
@[simp] theorem State.underflow_wbin (s : State) : (s.underflow).wbin = s.wbin := rfl
@[simp] theorem State.underflow_wgray (s : State) : (s.underflow).wgray = s.wgray := rfl
@[simp] theorem State.underflow_wqRgray (s : State) : (s.underflow).wqRgray = s.wqRgray := rfl
@[simp] theorem State.underflow_ovf (s : State) : (s.underflow).ovf = s.ovf := rfl
@[simp] theorem State.underflow_rbin (s : State) : (s.underflow).rbin = s.rbin := rfl
@[simp] theorem State.underflow_rgray (s : State) : (s.underflow).rgray = s.rgray := rfl
@[simp] theorem State.underflow_rqWgray (s : State) : (s.underflow).rqWgray = s.rqWgray := rfl
@[simp] theorem State.underflow_unf (s : State) : (s.underflow).unf = true := rfl
@[simp] theorem State.underflow_mem (s : State) : (s.underflow).mem = s.mem := rfl
@[simp] theorem State.underflow_level (s : State) : (s.underflow).level = s.level := rfl
@[simp] theorem State.underflow_pwmCnt (s : State) : (s.underflow).pwmCnt = s.pwmCnt := rfl
@[simp] theorem State.underflow_relayOpen (s : State) : (s.underflow).relayOpen = s.relayOpen := rfl
@[simp] theorem State.underflow_pitch (s : State) : (s.underflow).pitch = s.pitch := rfl
@[simp] theorem State.underflow_pact (s : State) : (s.underflow).pact = s.pact := rfl
@[simp] theorem State.underflow_tcnt (s : State) : (s.underflow).tcnt = s.tcnt := rfl
@[simp] theorem State.underflow_armed (s : State) : (s.underflow).armed = s.armed := rfl
@[simp] theorem State.underflow_drive (s : State) : (s.underflow).drive = s.drive := rfl
@[simp] theorem State.underflow_viol (s : State) : (s.underflow).viol = s.viol.insert .popWhenEmpty := rfl
@[simp] theorem State.underflow_refused (s : State) : (s.underflow).refused = s.refused := rfl
@[simp] theorem State.underflow_pitchSet (s : State) : (s.underflow).pitchSet = s.pitchSet := rfl
@[simp] theorem State.underflow_wResult (s : State) : (s.underflow).wResult = s.wResult := rfl
@[simp] theorem State.underflow_rResult (s : State) : (s.underflow).rResult = s.rResult := rfl
@[simp] theorem State.underflow_draws (s : State) : (s.underflow).draws = s.draws + 1 := rfl
@[simp] theorem State.underflow_pending (s : State) : (s.underflow).pending = s.pending := rfl

/-! ### `State.syncW2R` (40_fifo.md R120) -/

@[simp] theorem State.syncW2R_cfg (s : State) : (s.syncW2R).cfg = s.cfg := rfl
@[simp] theorem State.syncW2R_wbin (s : State) : (s.syncW2R).wbin = s.wbin := rfl
@[simp] theorem State.syncW2R_wgray (s : State) : (s.syncW2R).wgray = s.wgray := rfl
@[simp] theorem State.syncW2R_wqRgray (s : State) : (s.syncW2R).wqRgray = s.wqRgray := rfl
@[simp] theorem State.syncW2R_ovf (s : State) : (s.syncW2R).ovf = s.ovf := rfl
@[simp] theorem State.syncW2R_rbin (s : State) : (s.syncW2R).rbin = s.rbin := rfl
@[simp] theorem State.syncW2R_rgray (s : State) : (s.syncW2R).rgray = s.rgray := rfl
@[simp] theorem State.syncW2R_rqWgray (s : State) : (s.syncW2R).rqWgray = s.wgray := rfl
@[simp] theorem State.syncW2R_unf (s : State) : (s.syncW2R).unf = s.unf := rfl
@[simp] theorem State.syncW2R_mem (s : State) : (s.syncW2R).mem = s.mem := rfl
@[simp] theorem State.syncW2R_level (s : State) : (s.syncW2R).level = s.level := rfl
@[simp] theorem State.syncW2R_pwmCnt (s : State) : (s.syncW2R).pwmCnt = s.pwmCnt := rfl
@[simp] theorem State.syncW2R_relayOpen (s : State) : (s.syncW2R).relayOpen = s.relayOpen := rfl
@[simp] theorem State.syncW2R_pitch (s : State) : (s.syncW2R).pitch = s.pitch := rfl
@[simp] theorem State.syncW2R_pact (s : State) : (s.syncW2R).pact = s.pact := rfl
@[simp] theorem State.syncW2R_tcnt (s : State) : (s.syncW2R).tcnt = s.tcnt := rfl
@[simp] theorem State.syncW2R_armed (s : State) : (s.syncW2R).armed = s.armed := rfl
@[simp] theorem State.syncW2R_drive (s : State) : (s.syncW2R).drive = s.drive := rfl
@[simp] theorem State.syncW2R_viol (s : State) : (s.syncW2R).viol = s.viol := rfl
@[simp] theorem State.syncW2R_refused (s : State) : (s.syncW2R).refused = s.refused := rfl
@[simp] theorem State.syncW2R_pitchSet (s : State) : (s.syncW2R).pitchSet = s.pitchSet := rfl
@[simp] theorem State.syncW2R_wResult (s : State) : (s.syncW2R).wResult = s.wResult := rfl
@[simp] theorem State.syncW2R_rResult (s : State) : (s.syncW2R).rResult = s.rResult := rfl
@[simp] theorem State.syncW2R_draws (s : State) : (s.syncW2R).draws = s.draws := rfl
@[simp] theorem State.syncW2R_pending (s : State) : (s.syncW2R).pending = s.pending := rfl

/-! ### `State.syncR2W` (40_fifo.md R121) -/

@[simp] theorem State.syncR2W_cfg (s : State) : (s.syncR2W).cfg = s.cfg := rfl
@[simp] theorem State.syncR2W_wbin (s : State) : (s.syncR2W).wbin = s.wbin := rfl
@[simp] theorem State.syncR2W_wgray (s : State) : (s.syncR2W).wgray = s.wgray := rfl
@[simp] theorem State.syncR2W_wqRgray (s : State) : (s.syncR2W).wqRgray = s.rgray := rfl
@[simp] theorem State.syncR2W_ovf (s : State) : (s.syncR2W).ovf = s.ovf := rfl
@[simp] theorem State.syncR2W_rbin (s : State) : (s.syncR2W).rbin = s.rbin := rfl
@[simp] theorem State.syncR2W_rgray (s : State) : (s.syncR2W).rgray = s.rgray := rfl
@[simp] theorem State.syncR2W_rqWgray (s : State) : (s.syncR2W).rqWgray = s.rqWgray := rfl
@[simp] theorem State.syncR2W_unf (s : State) : (s.syncR2W).unf = s.unf := rfl
@[simp] theorem State.syncR2W_mem (s : State) : (s.syncR2W).mem = s.mem := rfl
@[simp] theorem State.syncR2W_level (s : State) : (s.syncR2W).level = s.level := rfl
@[simp] theorem State.syncR2W_pwmCnt (s : State) : (s.syncR2W).pwmCnt = s.pwmCnt := rfl
@[simp] theorem State.syncR2W_relayOpen (s : State) : (s.syncR2W).relayOpen = s.relayOpen := rfl
@[simp] theorem State.syncR2W_pitch (s : State) : (s.syncR2W).pitch = s.pitch := rfl
@[simp] theorem State.syncR2W_pact (s : State) : (s.syncR2W).pact = s.pact := rfl
@[simp] theorem State.syncR2W_tcnt (s : State) : (s.syncR2W).tcnt = s.tcnt := rfl
@[simp] theorem State.syncR2W_armed (s : State) : (s.syncR2W).armed = s.armed := rfl
@[simp] theorem State.syncR2W_drive (s : State) : (s.syncR2W).drive = s.drive := rfl
@[simp] theorem State.syncR2W_viol (s : State) : (s.syncR2W).viol = s.viol := rfl
@[simp] theorem State.syncR2W_refused (s : State) : (s.syncR2W).refused = s.refused := rfl
@[simp] theorem State.syncR2W_pitchSet (s : State) : (s.syncR2W).pitchSet = s.pitchSet := rfl
@[simp] theorem State.syncR2W_wResult (s : State) : (s.syncR2W).wResult = s.wResult := rfl
@[simp] theorem State.syncR2W_rResult (s : State) : (s.syncR2W).rResult = s.rResult := rfl
@[simp] theorem State.syncR2W_draws (s : State) : (s.syncR2W).draws = s.draws := rfl
@[simp] theorem State.syncR2W_pending (s : State) : (s.syncR2W).pending = s.pending := rfl

/-! ### `State.pwmTb` (41_pwm.md R149) -/

@[simp] theorem State.pwmTb_cfg (s : State) : (s.pwmTb).cfg = s.cfg := rfl
@[simp] theorem State.pwmTb_wbin (s : State) : (s.pwmTb).wbin = s.wbin := rfl
@[simp] theorem State.pwmTb_wgray (s : State) : (s.pwmTb).wgray = s.wgray := rfl
@[simp] theorem State.pwmTb_wqRgray (s : State) : (s.pwmTb).wqRgray = s.wqRgray := rfl
@[simp] theorem State.pwmTb_ovf (s : State) : (s.pwmTb).ovf = s.ovf := rfl
@[simp] theorem State.pwmTb_rbin (s : State) : (s.pwmTb).rbin = s.rbin := rfl
@[simp] theorem State.pwmTb_rgray (s : State) : (s.pwmTb).rgray = s.rgray := rfl
@[simp] theorem State.pwmTb_rqWgray (s : State) : (s.pwmTb).rqWgray = s.rqWgray := rfl
@[simp] theorem State.pwmTb_unf (s : State) : (s.pwmTb).unf = s.unf := rfl
@[simp] theorem State.pwmTb_mem (s : State) : (s.pwmTb).mem = s.mem := rfl
@[simp] theorem State.pwmTb_level (s : State) : (s.pwmTb).level = s.level := rfl
@[simp] theorem State.pwmTb_pwmCnt (s : State) : (s.pwmTb).pwmCnt = if s.pwmCnt + 1 = s.cfg.pwmMax then 0 else s.pwmCnt + 1 := rfl
@[simp] theorem State.pwmTb_relayOpen (s : State) : (s.pwmTb).relayOpen = s.relayOpen := rfl
@[simp] theorem State.pwmTb_pitch (s : State) : (s.pwmTb).pitch = s.pitch := rfl
@[simp] theorem State.pwmTb_pact (s : State) : (s.pwmTb).pact = s.pact := rfl
@[simp] theorem State.pwmTb_tcnt (s : State) : (s.pwmTb).tcnt = s.tcnt := rfl
@[simp] theorem State.pwmTb_armed (s : State) : (s.pwmTb).armed = s.armed := rfl
@[simp] theorem State.pwmTb_drive (s : State) : (s.pwmTb).drive = s.drive := rfl
@[simp] theorem State.pwmTb_viol (s : State) : (s.pwmTb).viol = s.viol := rfl
@[simp] theorem State.pwmTb_refused (s : State) : (s.pwmTb).refused = s.refused := rfl
@[simp] theorem State.pwmTb_pitchSet (s : State) : (s.pwmTb).pitchSet = s.pitchSet := rfl
@[simp] theorem State.pwmTb_wResult (s : State) : (s.pwmTb).wResult = s.wResult := rfl
@[simp] theorem State.pwmTb_rResult (s : State) : (s.pwmTb).rResult = s.rResult := rfl
@[simp] theorem State.pwmTb_draws (s : State) : (s.pwmTb).draws = s.draws := rfl
@[simp] theorem State.pwmTb_pending (s : State) : (s.pwmTb).pending = s.pending := rfl

/-! ### `State.disarm` (42_tone.md R165, R167) -/

@[simp] theorem State.disarm_cfg (s : State) : (s.disarm).cfg = s.cfg := rfl
@[simp] theorem State.disarm_wbin (s : State) : (s.disarm).wbin = s.wbin := rfl
@[simp] theorem State.disarm_wgray (s : State) : (s.disarm).wgray = s.wgray := rfl
@[simp] theorem State.disarm_wqRgray (s : State) : (s.disarm).wqRgray = s.wqRgray := rfl
@[simp] theorem State.disarm_ovf (s : State) : (s.disarm).ovf = s.ovf := rfl
@[simp] theorem State.disarm_rbin (s : State) : (s.disarm).rbin = s.rbin := rfl
@[simp] theorem State.disarm_rgray (s : State) : (s.disarm).rgray = s.rgray := rfl
@[simp] theorem State.disarm_rqWgray (s : State) : (s.disarm).rqWgray = s.rqWgray := rfl
@[simp] theorem State.disarm_unf (s : State) : (s.disarm).unf = s.unf := rfl
@[simp] theorem State.disarm_mem (s : State) : (s.disarm).mem = s.mem := rfl
@[simp] theorem State.disarm_level (s : State) : (s.disarm).level = s.level := rfl
@[simp] theorem State.disarm_pwmCnt (s : State) : (s.disarm).pwmCnt = s.pwmCnt := rfl
@[simp] theorem State.disarm_relayOpen (s : State) : (s.disarm).relayOpen = s.relayOpen := rfl
@[simp] theorem State.disarm_pitch (s : State) : (s.disarm).pitch = s.pitch := rfl
@[simp] theorem State.disarm_pact (s : State) : (s.disarm).pact = s.pact := rfl
@[simp] theorem State.disarm_tcnt (s : State) : (s.disarm).tcnt = 0 := rfl
@[simp] theorem State.disarm_armed (s : State) : (s.disarm).armed = false := rfl
@[simp] theorem State.disarm_drive (s : State) : (s.disarm).drive = s.cfg.toneIdle := rfl
@[simp] theorem State.disarm_viol (s : State) : (s.disarm).viol = s.viol := rfl
@[simp] theorem State.disarm_refused (s : State) : (s.disarm).refused = s.refused := rfl
@[simp] theorem State.disarm_pitchSet (s : State) : (s.disarm).pitchSet = s.pitchSet := rfl
@[simp] theorem State.disarm_wResult (s : State) : (s.disarm).wResult = s.wResult := rfl
@[simp] theorem State.disarm_rResult (s : State) : (s.disarm).rResult = s.rResult := rfl
@[simp] theorem State.disarm_draws (s : State) : (s.disarm).draws = s.draws := rfl
@[simp] theorem State.disarm_pending (s : State) : (s.disarm).pending = s.pending := rfl

/-! ### `State.arm` (42_tone.md R166) -/

@[simp] theorem State.arm_cfg (s : State) : (s.arm).cfg = s.cfg := by unfold State.arm; split <;> rfl
@[simp] theorem State.arm_wbin (s : State) : (s.arm).wbin = s.wbin := by unfold State.arm; split <;> rfl
@[simp] theorem State.arm_wgray (s : State) : (s.arm).wgray = s.wgray := by unfold State.arm; split <;> rfl
@[simp] theorem State.arm_wqRgray (s : State) : (s.arm).wqRgray = s.wqRgray := by unfold State.arm; split <;> rfl
@[simp] theorem State.arm_ovf (s : State) : (s.arm).ovf = s.ovf := by unfold State.arm; split <;> rfl
@[simp] theorem State.arm_rbin (s : State) : (s.arm).rbin = s.rbin := by unfold State.arm; split <;> rfl
@[simp] theorem State.arm_rgray (s : State) : (s.arm).rgray = s.rgray := by unfold State.arm; split <;> rfl
@[simp] theorem State.arm_rqWgray (s : State) : (s.arm).rqWgray = s.rqWgray := by unfold State.arm; split <;> rfl
@[simp] theorem State.arm_unf (s : State) : (s.arm).unf = s.unf := by unfold State.arm; split <;> rfl
@[simp] theorem State.arm_mem (s : State) : (s.arm).mem = s.mem := by unfold State.arm; split <;> rfl
@[simp] theorem State.arm_level (s : State) : (s.arm).level = s.level := by unfold State.arm; split <;> rfl
@[simp] theorem State.arm_pwmCnt (s : State) : (s.arm).pwmCnt = s.pwmCnt := by unfold State.arm; split <;> rfl
@[simp] theorem State.arm_relayOpen (s : State) : (s.arm).relayOpen = s.relayOpen := by unfold State.arm; split <;> rfl
@[simp] theorem State.arm_pitch (s : State) : (s.arm).pitch = s.pitch := by unfold State.arm; split <;> rfl
@[simp] theorem State.arm_pact (s : State) : (s.arm).pact = s.pitch := by unfold State.arm; split <;> rfl
@[simp] theorem State.arm_tcnt (s : State) : (s.arm).tcnt = 0 := by unfold State.arm; split <;> rfl
@[simp] theorem State.arm_armed (s : State) : (s.arm).armed = true := by unfold State.arm; split <;> rfl
@[simp] theorem State.arm_drive (s : State) : (s.arm).drive = s.drive := by unfold State.arm; split <;> rfl
@[simp] theorem State.arm_viol (s : State) : (s.arm).viol = if s.pitchSet then s.viol else s.viol.insert .pitchUnset := by unfold State.arm; split <;> rfl
@[simp] theorem State.arm_refused (s : State) : (s.arm).refused = s.refused := by unfold State.arm; split <;> rfl
@[simp] theorem State.arm_pitchSet (s : State) : (s.arm).pitchSet = s.pitchSet := by unfold State.arm; split <;> rfl
@[simp] theorem State.arm_wResult (s : State) : (s.arm).wResult = s.wResult := by unfold State.arm; split <;> rfl
@[simp] theorem State.arm_rResult (s : State) : (s.arm).rResult = s.rResult := by unfold State.arm; split <;> rfl
@[simp] theorem State.arm_draws (s : State) : (s.arm).draws = s.draws := by unfold State.arm; split <;> rfl
@[simp] theorem State.arm_pending (s : State) : (s.arm).pending = s.pending := by unfold State.arm; split <;> rfl

/-! ### `State.toneTmr` (42_tone.md R169) -/

@[simp] theorem State.toneTmr_cfg (s : State) : (s.toneTmr).cfg = s.cfg := by unfold State.toneTmr; (repeat' split) <;> rfl
@[simp] theorem State.toneTmr_wbin (s : State) : (s.toneTmr).wbin = s.wbin := by unfold State.toneTmr; (repeat' split) <;> rfl
@[simp] theorem State.toneTmr_wgray (s : State) : (s.toneTmr).wgray = s.wgray := by unfold State.toneTmr; (repeat' split) <;> rfl
@[simp] theorem State.toneTmr_wqRgray (s : State) : (s.toneTmr).wqRgray = s.wqRgray := by unfold State.toneTmr; (repeat' split) <;> rfl
@[simp] theorem State.toneTmr_ovf (s : State) : (s.toneTmr).ovf = s.ovf := by unfold State.toneTmr; (repeat' split) <;> rfl
@[simp] theorem State.toneTmr_rbin (s : State) : (s.toneTmr).rbin = s.rbin := by unfold State.toneTmr; (repeat' split) <;> rfl
@[simp] theorem State.toneTmr_rgray (s : State) : (s.toneTmr).rgray = s.rgray := by unfold State.toneTmr; (repeat' split) <;> rfl
@[simp] theorem State.toneTmr_rqWgray (s : State) : (s.toneTmr).rqWgray = s.rqWgray := by unfold State.toneTmr; (repeat' split) <;> rfl
@[simp] theorem State.toneTmr_unf (s : State) : (s.toneTmr).unf = s.unf := by unfold State.toneTmr; (repeat' split) <;> rfl
@[simp] theorem State.toneTmr_mem (s : State) : (s.toneTmr).mem = s.mem := by unfold State.toneTmr; (repeat' split) <;> rfl
@[simp] theorem State.toneTmr_level (s : State) : (s.toneTmr).level = s.level := by unfold State.toneTmr; (repeat' split) <;> rfl
@[simp] theorem State.toneTmr_pwmCnt (s : State) : (s.toneTmr).pwmCnt = s.pwmCnt := by unfold State.toneTmr; (repeat' split) <;> rfl
@[simp] theorem State.toneTmr_relayOpen (s : State) : (s.toneTmr).relayOpen = s.relayOpen := by unfold State.toneTmr; (repeat' split) <;> rfl
@[simp] theorem State.toneTmr_pitch (s : State) : (s.toneTmr).pitch = s.pitch := by unfold State.toneTmr; (repeat' split) <;> rfl
@[simp] theorem State.toneTmr_pact (s : State) : (s.toneTmr).pact = s.pact := by unfold State.toneTmr; (repeat' split) <;> rfl
@[simp] theorem State.toneTmr_tcnt (s : State) : (s.toneTmr).tcnt = if s.armed then if s.tcnt + 1 ≥ s.effPitch then 0 else s.tcnt + 1 else s.tcnt := by unfold State.toneTmr; (repeat' split) <;> rfl
@[simp] theorem State.toneTmr_armed (s : State) : (s.toneTmr).armed = s.armed := by unfold State.toneTmr; (repeat' split) <;> rfl
@[simp] theorem State.toneTmr_drive (s : State) : (s.toneTmr).drive = if s.armed then if s.tcnt + 1 ≥ s.effPitch then !s.drive else s.drive else s.drive := by unfold State.toneTmr; (repeat' split) <;> rfl
@[simp] theorem State.toneTmr_viol (s : State) : (s.toneTmr).viol = s.viol := by unfold State.toneTmr; (repeat' split) <;> rfl
@[simp] theorem State.toneTmr_refused (s : State) : (s.toneTmr).refused = s.refused := by unfold State.toneTmr; (repeat' split) <;> rfl
@[simp] theorem State.toneTmr_pitchSet (s : State) : (s.toneTmr).pitchSet = s.pitchSet := by unfold State.toneTmr; (repeat' split) <;> rfl
@[simp] theorem State.toneTmr_wResult (s : State) : (s.toneTmr).wResult = s.wResult := by unfold State.toneTmr; (repeat' split) <;> rfl
@[simp] theorem State.toneTmr_rResult (s : State) : (s.toneTmr).rResult = s.rResult := by unfold State.toneTmr; (repeat' split) <;> rfl
@[simp] theorem State.toneTmr_draws (s : State) : (s.toneTmr).draws = s.draws := by unfold State.toneTmr; (repeat' split) <;> rfl
@[simp] theorem State.toneTmr_pending (s : State) : (s.toneTmr).pending = s.pending := by unfold State.toneTmr; (repeat' split) <;> rfl

/-! ### `State.resetEvent` (70_reset_and_hazards.md R200) -/

@[simp] theorem State.resetEvent_cfg (s : State) : (s.resetEvent).cfg = s.cfg := rfl
@[simp] theorem State.resetEvent_wbin (s : State) : (s.resetEvent).wbin = 0 := rfl
@[simp] theorem State.resetEvent_wgray (s : State) : (s.resetEvent).wgray = 0 := rfl
@[simp] theorem State.resetEvent_wqRgray (s : State) : (s.resetEvent).wqRgray = 0 := rfl
@[simp] theorem State.resetEvent_ovf (s : State) : (s.resetEvent).ovf = 0 := rfl
@[simp] theorem State.resetEvent_rbin (s : State) : (s.resetEvent).rbin = 0 := rfl
@[simp] theorem State.resetEvent_rgray (s : State) : (s.resetEvent).rgray = 0 := rfl
@[simp] theorem State.resetEvent_rqWgray (s : State) : (s.resetEvent).rqWgray = 0 := rfl
@[simp] theorem State.resetEvent_unf (s : State) : (s.resetEvent).unf = false := rfl
@[simp] theorem State.resetEvent_mem (s : State) : (s.resetEvent).mem = s.mem := rfl
@[simp] theorem State.resetEvent_level (s : State) : (s.resetEvent).level = ⟨s.cfg.pwmMax, s.cfg.pwmMax, s.cfg.toneOffLevel⟩ := rfl
@[simp] theorem State.resetEvent_pwmCnt (s : State) : (s.resetEvent).pwmCnt = 0 := rfl
@[simp] theorem State.resetEvent_relayOpen (s : State) : (s.resetEvent).relayOpen = false := rfl
@[simp] theorem State.resetEvent_pitch (s : State) : (s.resetEvent).pitch = 0 := rfl
@[simp] theorem State.resetEvent_pact (s : State) : (s.resetEvent).pact = 0 := rfl
@[simp] theorem State.resetEvent_tcnt (s : State) : (s.resetEvent).tcnt = 0 := rfl
@[simp] theorem State.resetEvent_armed (s : State) : (s.resetEvent).armed = false := rfl
@[simp] theorem State.resetEvent_drive (s : State) : (s.resetEvent).drive = s.cfg.toneIdle := rfl
@[simp] theorem State.resetEvent_viol (s : State) : (s.resetEvent).viol = s.viol := rfl
@[simp] theorem State.resetEvent_refused (s : State) : (s.resetEvent).refused = s.refused := rfl
@[simp] theorem State.resetEvent_pitchSet (s : State) : (s.resetEvent).pitchSet = false := rfl
@[simp] theorem State.resetEvent_wResult (s : State) : (s.resetEvent).wResult = none := rfl
@[simp] theorem State.resetEvent_rResult (s : State) : (s.resetEvent).rResult = none := rfl
@[simp] theorem State.resetEvent_draws (s : State) : (s.resetEvent).draws = s.draws := rfl
@[simp] theorem State.resetEvent_pending (s : State) : (s.resetEvent).pending = s.pending := rfl

/-! ### `State.markRefused` (60_exceptions.md R182): the hardware state is unchanged -/

@[simp] theorem State.markRefused_cfg (s : State) (r : Refusal) : (s.markRefused r).cfg = s.cfg := by cases r <;> simp [State.markRefused]
@[simp] theorem State.markRefused_wbin (s : State) (r : Refusal) : (s.markRefused r).wbin = s.wbin := by cases r <;> simp [State.markRefused]
@[simp] theorem State.markRefused_wgray (s : State) (r : Refusal) : (s.markRefused r).wgray = s.wgray := by cases r <;> simp [State.markRefused]
@[simp] theorem State.markRefused_wqRgray (s : State) (r : Refusal) : (s.markRefused r).wqRgray = s.wqRgray := by cases r <;> simp [State.markRefused]
@[simp] theorem State.markRefused_ovf (s : State) (r : Refusal) : (s.markRefused r).ovf = s.ovf := by cases r <;> simp [State.markRefused]
@[simp] theorem State.markRefused_rbin (s : State) (r : Refusal) : (s.markRefused r).rbin = s.rbin := by cases r <;> simp [State.markRefused]
@[simp] theorem State.markRefused_rgray (s : State) (r : Refusal) : (s.markRefused r).rgray = s.rgray := by cases r <;> simp [State.markRefused]
@[simp] theorem State.markRefused_rqWgray (s : State) (r : Refusal) : (s.markRefused r).rqWgray = s.rqWgray := by cases r <;> simp [State.markRefused]
@[simp] theorem State.markRefused_unf (s : State) (r : Refusal) : (s.markRefused r).unf = s.unf := by cases r <;> simp [State.markRefused]
@[simp] theorem State.markRefused_mem (s : State) (r : Refusal) : (s.markRefused r).mem = s.mem := by cases r <;> simp [State.markRefused]
@[simp] theorem State.markRefused_level (s : State) (r : Refusal) : (s.markRefused r).level = s.level := by cases r <;> simp [State.markRefused]
@[simp] theorem State.markRefused_pwmCnt (s : State) (r : Refusal) : (s.markRefused r).pwmCnt = s.pwmCnt := by cases r <;> simp [State.markRefused]
@[simp] theorem State.markRefused_relayOpen (s : State) (r : Refusal) : (s.markRefused r).relayOpen = s.relayOpen := by cases r <;> simp [State.markRefused]
@[simp] theorem State.markRefused_pitch (s : State) (r : Refusal) : (s.markRefused r).pitch = s.pitch := by cases r <;> simp [State.markRefused]
@[simp] theorem State.markRefused_pact (s : State) (r : Refusal) : (s.markRefused r).pact = s.pact := by cases r <;> simp [State.markRefused]
@[simp] theorem State.markRefused_tcnt (s : State) (r : Refusal) : (s.markRefused r).tcnt = s.tcnt := by cases r <;> simp [State.markRefused]
@[simp] theorem State.markRefused_armed (s : State) (r : Refusal) : (s.markRefused r).armed = s.armed := by cases r <;> simp [State.markRefused]
@[simp] theorem State.markRefused_drive (s : State) (r : Refusal) : (s.markRefused r).drive = s.drive := by cases r <;> simp [State.markRefused]
@[simp] theorem State.markRefused_viol (s : State) (r : Refusal) : (s.markRefused r).viol = s.viol := by cases r <;> simp [State.markRefused]
@[simp] theorem State.markRefused_refused (s : State) (r : Refusal) : (s.markRefused r).refused = true := by cases r <;> simp [State.markRefused]
@[simp] theorem State.markRefused_pitchSet (s : State) (r : Refusal) : (s.markRefused r).pitchSet = s.pitchSet := by cases r <;> simp [State.markRefused]
@[simp] theorem State.markRefused_draws (s : State) (r : Refusal) : (s.markRefused r).draws = s.draws := by cases r <;> simp [State.markRefused]
@[simp] theorem State.markRefused_pending (s : State) (r : Refusal) : (s.markRefused r).pending = s.pending := by cases r <;> simp [State.markRefused]

/-! ### `takeEvent` (00_scope.md R13) -/

@[simp] theorem takeEvent_cfg (s : State) : (takeEvent s).cfg = s.cfg := by unfold takeEvent; split <;> rfl
@[simp] theorem takeEvent_wbin (s : State) : (takeEvent s).wbin = s.wbin := by unfold takeEvent; split <;> rfl
@[simp] theorem takeEvent_wgray (s : State) : (takeEvent s).wgray = s.wgray := by unfold takeEvent; split <;> rfl
@[simp] theorem takeEvent_wqRgray (s : State) : (takeEvent s).wqRgray = s.wqRgray := by unfold takeEvent; split <;> rfl
@[simp] theorem takeEvent_ovf (s : State) : (takeEvent s).ovf = s.ovf := by unfold takeEvent; split <;> rfl
@[simp] theorem takeEvent_rbin (s : State) : (takeEvent s).rbin = s.rbin := by unfold takeEvent; split <;> rfl
@[simp] theorem takeEvent_rgray (s : State) : (takeEvent s).rgray = s.rgray := by unfold takeEvent; split <;> rfl
@[simp] theorem takeEvent_rqWgray (s : State) : (takeEvent s).rqWgray = s.rqWgray := by unfold takeEvent; split <;> rfl
@[simp] theorem takeEvent_unf (s : State) : (takeEvent s).unf = s.unf := by unfold takeEvent; split <;> rfl
@[simp] theorem takeEvent_mem (s : State) : (takeEvent s).mem = s.mem := by unfold takeEvent; split <;> rfl
@[simp] theorem takeEvent_level (s : State) : (takeEvent s).level = s.level := by unfold takeEvent; split <;> rfl
@[simp] theorem takeEvent_pwmCnt (s : State) : (takeEvent s).pwmCnt = s.pwmCnt := by unfold takeEvent; split <;> rfl
@[simp] theorem takeEvent_relayOpen (s : State) : (takeEvent s).relayOpen = s.relayOpen := by unfold takeEvent; split <;> rfl
@[simp] theorem takeEvent_pitch (s : State) : (takeEvent s).pitch = s.pitch := by unfold takeEvent; split <;> rfl
@[simp] theorem takeEvent_pact (s : State) : (takeEvent s).pact = s.pact := by unfold takeEvent; split <;> rfl
@[simp] theorem takeEvent_tcnt (s : State) : (takeEvent s).tcnt = s.tcnt := by unfold takeEvent; split <;> rfl
@[simp] theorem takeEvent_armed (s : State) : (takeEvent s).armed = s.armed := by unfold takeEvent; split <;> rfl
@[simp] theorem takeEvent_drive (s : State) : (takeEvent s).drive = s.drive := by unfold takeEvent; split <;> rfl
@[simp] theorem takeEvent_viol (s : State) : (takeEvent s).viol = s.viol := by unfold takeEvent; split <;> rfl
@[simp] theorem takeEvent_refused (s : State) : (takeEvent s).refused = s.refused := by unfold takeEvent; split <;> rfl
@[simp] theorem takeEvent_pitchSet (s : State) : (takeEvent s).pitchSet = s.pitchSet := by unfold takeEvent; split <;> rfl
@[simp] theorem takeEvent_wResult (s : State) : (takeEvent s).wResult = s.wResult := by unfold takeEvent; split <;> rfl
@[simp] theorem takeEvent_rResult (s : State) : (takeEvent s).rResult = s.rResult := by unfold takeEvent; split <;> rfl

/-! ### Derived values that an update leaves alone -/

@[simp] theorem State.answer_count (s : State) (p : Port) (r : Option Word) : (s.answer p r).count = s.count := by
  simp [State.count]
@[simp] theorem State.answer_wcount (s : State) (p : Port) (r : Option Word) : (s.answer p r).wcount = s.wcount := by
  simp [State.wcount]
@[simp] theorem State.answer_rcount (s : State) (p : Port) (r : Option Word) : (s.answer p r).rcount = s.rcount := by
  simp [State.rcount]
@[simp] theorem State.answer_contents (s : State) (p : Port) (r : Option Word) : (s.answer p r).contents = s.contents := by
  simp [State.contents]
@[simp] theorem State.markRefused_contents (s : State) (r : Refusal) : (s.markRefused r).contents = s.contents := by
  simp [State.contents, State.count]

end Sys2Proof.Machine
end

