-- ==== Sys2Proof/Laws/Exec.lean ====
section
/-! SUPPORT. What an op, an event and a step can do, said once: every op has a next state, which
`opEffect` names, and `runEvent`, `step`, `afterEvent` and `advance` are given by it. -/
namespace Sys2Proof.Machine

/-- The state an op leaves (30_encoding.md R96). -/
def opEffect : Instr → State → State
  | .fifoPush b, s => (if s.wcount = s.cfg.depth then s.dropByte else s.enqueue b).answer .w none
  | .fifoPop, s =>
    if s.rcount = 0 then s.underflow.answer .r (some (popResult false s.drawn))
    else s.dequeue.answer .r (some (popResult true s.headByte))
  | .fifoEmpty, s => s.answer .r (some (bitResult s.empty))
  | .fifoFull, s => s.answer .w (some (bitResult s.full))
  | .fifoRcount, s => s.answer .r (some (numberResult s.rcount))
  | .fifoWcount, s => s.answer .w (some (numberResult s.wcount))
  | .fifoOvfcnt, s => s.answer .w (some (numberResult s.ovf))
  | .fifoOvfclr, s => { s with ovf := 0 }.answer .w none
  | .fifoUnflag, s => s.answer .r (some (bitResult s.unf))
  | .fifoUnfclr, s => { s with unf := false }.answer .r none
  | .pwmSet ch l, s => { s with level := s.level.set ch (levelOperand s.cfg l) }.answer .r none
  | .pwmGet ch, s => s.answer .r (some (numberResult (s.level.get ch)))
  | .pwmPower, s => { s with level := ⟨s.cfg.pwmMax, s.cfg.pwmMax, s.cfg.toneOffLevel⟩ }.answer .r none
  | .relaySet u, s => { s with relayOpen := u }.answer .r none
  | .relayGet, s => s.answer .r (some (bitResult s.relayOpen))
  | .tonePitch q, s => { s with pitch := pitchOperand s.cfg q, pitchSet := true }.answer .r none
  | .toneGetpitch, s => s.answer .r (some (numberResult s.pitch))
  | .toneInit, s => s.disarm.answer .r none
  | .toneOn, s => (if s.armed then s else s.arm).answer .r none
  | .toneOff, s => s.disarm.answer .r none
  | .toneStatus, s => s.answer .r (some (statusResult s.drive s.armed))

/-- Every op is enabled in every state (00_scope.md R13). -/
theorem exec_eq (i : Instr) (s : State) : exec i s = .next (opEffect i s) := by cases i <;> rfl

/-- The cases of an event that has a next state. -/
theorem runEvent_cases {e : Event} {s t : State} (h : runEvent e s = .next t) :
    (∃ port w i, e = .op port w ∧ decode s.cfg port w = .ok i ∧ t = opEffect i s) ∨
      (e = .syncW2R ∧ t = s.syncW2R) ∨ (e = .syncR2W ∧ t = s.syncR2W) ∨ (e = .pwmTb ∧ t = s.pwmTb) ∨
      (e = .toneTmr ∧ t = s.toneTmr) ∨ (e = .reset ∧ t = s.resetEvent) := by
  cases e with
  | op port w =>
    simp only [runEvent, runWord] at h
    split at h
    · rename_i i hd
      rw [exec_eq] at h
      exact .inl ⟨port, w, i, rfl, hd, by simpa using h.symm⟩
    · cases h
  | partialReset d => cases h
  | _ => simp only [runEvent] at h; cases h; simp

/-- The cases of an event that is refused. -/
theorem runEvent_refused_cases {e : Event} {s : State} {r : Refusal} (h : runEvent e s = .refused r) :
    (∃ port w d, e = .op port w ∧ decode s.cfg port w = .error d ∧ r = refuseWord port w d) ∨
      (∃ d, e = .partialReset d ∧ r = .partialReset d) := by
  cases e with
  | op port w =>
    simp only [runEvent, runWord] at h
    split at h
    · rw [exec_eq] at h; cases h
    · rename_i d hd
      exact .inl ⟨port, w, d, rfl, hd, by simpa using h.symm⟩
  | partialReset d => cases h; simp
  | _ => cases h

/-- A step that has a next state: the parameters are legal and the next event has that next state. -/
theorem step_next {s t : State} : step s = .next t ↔
    s.cfg.Legal ∧ runEvent (nextEvent s) (takeEvent s) = .next t := by
  unfold step stepOnce
  split
  · exact ⟨fun h => ⟨‹_›, h⟩, fun h => h.2⟩
  · exact ⟨fun h => (by cases h), fun h => absurd h.1 ‹_›⟩

theorem step_of_legal {s : State} (h : s.cfg.Legal) : step s = runEvent (nextEvent s) (takeEvent s) := by
  simp [step, stepOnce, h]

/-- The state after an op word that decodes. -/
theorem afterEvent_op_ok {port : Port} {w : Word} {i : Instr} {s : State}
    (h : decode s.cfg port w = .ok i) : afterEvent (.op port w) s = opEffect i s := by
  simp [afterEvent, runEvent, runWord, h, exec_eq]

/-- The state after an op word that is refused. -/
theorem afterEvent_op_error {port : Port} {w : Word} {d : DecodeReject} {s : State}
    (h : decode s.cfg port w = .error d) :
    afterEvent (.op port w) s = s.markRefused (refuseWord port w d) := by
  simp [afterEvent, runEvent, runWord, h]

@[simp] theorem afterEvent_syncW2R (s : State) : afterEvent .syncW2R s = s.syncW2R := rfl
@[simp] theorem afterEvent_syncR2W (s : State) : afterEvent .syncR2W s = s.syncR2W := rfl
@[simp] theorem afterEvent_pwmTb (s : State) : afterEvent .pwmTb s = s.pwmTb := rfl
@[simp] theorem afterEvent_toneTmr (s : State) : afterEvent .toneTmr s = s.toneTmr := rfl
@[simp] theorem afterEvent_reset (s : State) : afterEvent .reset s = s.resetEvent := rfl
@[simp] theorem afterEvent_partialReset (d : Domain) (s : State) :
    afterEvent (.partialReset d) s = s.markRefused (.partialReset d) := rfl

/-- The state after any event is an op's, an internal step's, the reset event's, or the marked state. -/
theorem afterEvent_cases (e : Event) (s : State) :
    (∃ port w i, e = .op port w ∧ decode s.cfg port w = .ok i ∧ afterEvent e s = opEffect i s) ∨
      (∃ r, (∃ port w d, e = .op port w ∧ decode s.cfg port w = .error d ∧ r = refuseWord port w d) ∧
        afterEvent e s = s.markRefused r) ∨
      (∃ d, e = .partialReset d ∧ afterEvent e s = s.markRefused (.partialReset d)) ∨
      (e = .syncW2R ∧ afterEvent e s = s.syncW2R) ∨ (e = .syncR2W ∧ afterEvent e s = s.syncR2W) ∨
      (e = .pwmTb ∧ afterEvent e s = s.pwmTb) ∨ (e = .toneTmr ∧ afterEvent e s = s.toneTmr) ∨
      (e = .reset ∧ afterEvent e s = s.resetEvent) := by
  cases e with
  | op port w =>
    cases h : decode s.cfg port w with
    | ok i => exact .inl ⟨port, w, i, rfl, h, afterEvent_op_ok h⟩
    | error d => exact .inr (.inl ⟨_, ⟨port, w, d, rfl, h, rfl⟩, afterEvent_op_error h⟩)
  | _ => simp

end Sys2Proof.Machine
end

