-- ==== Sys2Proof/Laws/Memory.lean ====
section
/-! SUPPORT. The storage as reads see it: read after write, and the canonical form (10_state.md R40). -/
namespace Sys2Proof.Machine

theorem Memory.read_write (m : Memory) (i j : Nat) (v : Byte) (h : m.wf) :
    (m.write i v).read j = if j = i then some v else m.read j := by
  induction m with
  | nil => simp [Memory.write, Memory.read]
  | cons c m ih =>
    have hm : Memory.wf m := (List.pairwise_cons.mp h).2
    simp only [Memory.write]
    split
    · simp [Memory.read]
    · split
      · rename_i h1 h2
        simp only [Memory.read, h2]
        split <;> simp_all
      · simp only [Memory.read, ih hm]
        split <;> split <;> simp_all

/-- Every slot listed after a write was listed before it, or is the slot written. -/
theorem Memory.mem_write {m : Memory} {i : Nat} {v : Byte} {c : Host.Cell} (h : c ∈ m.write i v) :
    c = (i, v) ∨ c ∈ m := by
  induction m with
  | nil => simpa [Memory.write] using h
  | cons d m ih =>
    simp only [Memory.write] at h
    split at h
    · simpa using h
    · split at h
      · simp only [List.mem_cons] at *; tauto
      · simp only [List.mem_cons] at *; tauto

/-- A write keeps the canonical form. -/
theorem Memory.write_wf {m : Memory} (i : Nat) (v : Byte) (h : m.wf) : (m.write i v).wf := by
  induction m with
  | nil => simp [Memory.write]
  | cons d m ih =>
    obtain ⟨h1, h2⟩ := List.pairwise_cons.mp h
    simp only [Memory.write]
    split
    · rename_i hlt
      refine List.pairwise_cons.mpr ⟨fun c hc => ?_, h⟩
      rcases List.mem_cons.mp hc with rfl | hc
      · exact hlt
      · exact lt_trans hlt (h1 c hc)
    · split
      · rename_i _ he
        exact List.pairwise_cons.mpr ⟨fun c hc => by simpa [he] using h1 c hc, h2⟩
      · refine List.pairwise_cons.mpr ⟨fun c hc => ?_, ih h2⟩
        rcases Memory.mem_write hc with rfl | hc
        · simp only; omega
        · exact h1 c hc

theorem Memory.byteAt_write (m : Memory) (i j : Nat) (v : Byte) (h : m.wf) :
    (m.write i v).byteAt j = if j = i then v else m.byteAt j := by
  unfold Memory.byteAt
  rw [Memory.read_write m i j v h]
  split <;> rfl

/-- Two storages in canonical form that read alike are the same data. -/
theorem Memory.ext_read {m n : Memory} (hm : m.wf) (hn : n.wf) (h : ∀ i, m.read i = n.read i) : m = n := by
  have key : ∀ (m : Memory), m.wf → ∀ c, c ∈ m ↔ m.read c.1 = some c.2 := by
    intro m hm c
    induction m with
    | nil => simp [Memory.read]
    | cons d m ih =>
      obtain ⟨h1, h2⟩ := List.pairwise_cons.mp hm
      simp only [List.mem_cons, Memory.read]
      split
      · rename_i he
        constructor
        · rintro (rfl | hc)
          · rfl
          · exact absurd (h1 c hc) (by omega)
        · intro hs; left; exact Prod.ext he (by simpa using hs.symm)
      · rename_i hne
        rw [← ih h2]
        constructor
        · rintro (rfl | hc)
          · exact absurd rfl hne
          · exact hc
        · exact Or.inr
  refine List.Perm.eq_of_pairwise (le := fun a b => a.1 < b.1) ?_ hm hn ?_
  · intro a b _ _ h1 h2; omega
  · refine (List.perm_ext_iff_of_nodup ?_ ?_).mpr fun c => by rw [key m hm, key n hn, h]
    · exact hm.imp fun h he => by simp [he] at h
    · exact hn.imp fun h he => by simp [he] at h

theorem State.resetWith_mem_wf (p : Params) : (State.resetWith p).mem.wf := List.Pairwise.nil

end Sys2Proof.Machine
end

