-- ==== Sys2Proof/Laws/Pointers.lean ====
section
/-! SUPPORT. What the modular operations and the Gray code do (00_scope.md R18, 10_state.md R31). -/
namespace Sys2Proof.Machine

theorem trunc_lt (w v : Nat) : trunc w v < 2 ^ w := Nat.mod_lt _ (by positivity)

theorem trunc_of_lt {w v : Nat} (h : v < 2 ^ w) : trunc w v = v := Nat.mod_eq_of_lt h

theorem addW_lt (w a b : Nat) : addW w a b < 2 ^ w := trunc_lt _ _

theorem subW_lt (w a b : Nat) : subW w a b < 2 ^ w := trunc_lt _ _

/-- A pointer one further, without a modulus. -/
theorem addW_one {w a : Nat} (h : a < 2 ^ w) :
    addW w a 1 = if a + 1 = 2 ^ w then 0 else a + 1 := by
  unfold addW trunc
  split <;> rename_i h1
  · rw [h1, Nat.mod_self]
  · exact Nat.mod_eq_of_lt (by omega)

/-- A difference of two pointers, without a modulus. -/
theorem subW_of_lt {w a b : Nat} (ha : a < 2 ^ w) (hb : b < 2 ^ w) :
    subW w a b = if b ≤ a then a - b else a + 2 ^ w - b := by
  unfold subW
  rw [trunc_of_lt hb]
  unfold trunc
  split
  · rw [show a + (2 ^ w - b) = (a - b) + 2 ^ w by omega, Nat.add_mod_right]
    exact Nat.mod_eq_of_lt (by omega)
  · rw [show a + (2 ^ w - b) = a + 2 ^ w - b by omega]
    exact Nat.mod_eq_of_lt (by omega)

theorem subW_self {w a : Nat} (ha : a < 2 ^ w) : subW w a a = 0 := by
  rw [subW_of_lt ha ha]; simp

/-- Two pointers at no distance are equal. -/
theorem subW_eq_zero {w a b : Nat} (ha : a < 2 ^ w) (hb : b < 2 ^ w) : subW w a b = 0 ↔ a = b := by
  rw [subW_of_lt ha hb]; split <;> omega

/-- The pointer that is `subW w a b` beyond `b` is `a`. -/
theorem addW_subW {w a b : Nat} (ha : a < 2 ^ w) (hb : b < 2 ^ w) : addW w b (subW w a b) = a := by
  rw [subW_of_lt ha hb]
  unfold addW trunc
  split
  · rw [show b + (a - b) = a by omega]; exact Nat.mod_eq_of_lt ha
  · rw [show b + (a + 2 ^ w - b) = a + 2 ^ w by omega, Nat.add_mod_right]; exact Nat.mod_eq_of_lt ha

/-! ### Gray code -/

theorem gray_lt {w b : Nat} (h : b < 2 ^ w) : gray b < 2 ^ w :=
  Nat.xor_lt_two_pow h (lt_of_le_of_lt (by rw [Nat.shiftRight_eq_div_pow]; exact Nat.div_le_self _ _) h)

theorem gray_shift (b : Nat) : gray b >>> 1 = gray (b >>> 1) := by
  unfold gray; rw [Nat.shiftRight_xor_distrib]

theorem bin_lt (w g : Nat) (h : g < 2 ^ w) : bin w g < 2 ^ w := by
  induction w generalizing g with
  | zero => simp [bin]
  | succ w ih =>
    have h2 : g >>> 1 < 2 ^ w := by
      rw [Nat.shiftRight_eq_div_pow]; omega
    exact Nat.xor_lt_two_pow h (lt_trans (ih _ h2) (by rw [pow_succ]; omega))

/-- `bin` is a left inverse of `gray` (00_scope.md R18). -/
theorem bin_gray (w b : Nat) (h : b < 2 ^ w) : bin w (gray b) = b := by
  induction w generalizing b with
  | zero => simp [bin] at *; omega
  | succ w ih =>
    have h2 : b >>> 1 < 2 ^ w := by
      rw [Nat.shiftRight_eq_div_pow]; omega
    rw [bin, gray_shift, ih _ h2]
    unfold gray
    rw [Nat.xor_assoc, Nat.xor_self, Nat.xor_zero]

/-- `bin` is a right inverse of `gray` (00_scope.md R18). -/
theorem gray_bin (w g : Nat) (h : g < 2 ^ w) : gray (bin w g) = g := by
  induction w generalizing g with
  | zero => simp [bin, gray] at *; omega
  | succ w ih =>
    have h2 : g >>> 1 < 2 ^ w := by
      rw [Nat.shiftRight_eq_div_pow]; omega
    have := ih _ h2
    have hs : bin (w + 1) g >>> 1 = bin w (g >>> 1) := by
      rw [bin, Nat.shiftRight_xor_distrib]
      have : bin w (g >>> 1) ^^^ (bin w (g >>> 1) >>> 1) = g >>> 1 := this
      rw [← this, Nat.xor_assoc, this, ← this]
      conv_lhs => rw [Nat.xor_comm, Nat.xor_assoc]
      simp
    unfold gray at *
    rw [hs, bin, Nat.xor_assoc, Nat.xor_self, Nat.xor_zero]

theorem gray_inj {w a b : Nat} (ha : a < 2 ^ w) (hb : b < 2 ^ w) : gray a = gray b ↔ a = b :=
  ⟨fun h => by rw [← bin_gray w a ha, h, bin_gray w b hb], fun h => by rw [h]⟩

end Sys2Proof.Machine
end

