-- ==== Sys2Proof/Laws/Results.lean ====
section
/-! SUPPORT. The result words bit by bit (30_encoding.md R93, R95), and the level registers by channel. -/
namespace Sys2Proof.Machine

theorem popResult_getLsbD (v : Bool) (b : Byte) (i : Nat) :
    (popResult v b).getLsbD i = if i < 8 then b.getLsbD i else (decide (i = 8) && v) := by
  unfold popResult
  rw [BitVec.getLsbD_setWidth, BitVec.getLsbD_append]
  by_cases h : i < 8
  · simp [h]; intro; omega
  · by_cases h2 : i = 8
    · subst h2; simp
    · have : i - 8 ≠ 0 := by omega
      simp [h, h2, BitVec.getLsbD_ofBool, this]

theorem popResult_eq (v : Bool) (b : Byte) :
    popResult v b = (if v then 0x100#32 else 0#32) ||| b.setWidth 32 := by
  apply BitVec.eq_of_getLsbD_eq
  intro i hi
  rw [popResult_getLsbD, BitVec.getLsbD_or, BitVec.getLsbD_setWidth]
  by_cases h : i < 8
  · rw [if_pos h]
    cases v <;> interval_cases i <;> simp
  · have hb : b.getLsbD i = false := BitVec.getLsbD_of_ge b i (by omega)
    rw [if_neg h, hb]
    cases v
    · simp
    · interval_cases i <;> simp_all

theorem popResult_byte (v : Bool) (b : Byte) : (popResult v b).setWidth 8 = b := by
  apply BitVec.eq_of_getLsbD_eq
  intro i hi
  rw [BitVec.getLsbD_setWidth, popResult_getLsbD]; simp [hi]

theorem bitResult_eq (b : Bool) : bitResult b = if b then 1#32 else 0#32 := by cases b <;> rfl

theorem statusResult_eq (d a : Bool) :
    statusResult d a = BitVec.ofNat 32 (2 * d.toNat + a.toNat) := by cases d <;> cases a <;> rfl

theorem Levels.get_set (l : Levels) (ch c : Channel) (v : Nat) :
    (l.set ch v).get c = if c = ch then v else l.get c := by
  cases ch <;> cases c <;> simp [Levels.set, Levels.get]

end Sys2Proof.Machine
end

