-- ==== Sys2Proof/Laws/Fifo.lean ====
section
/-! SUPPORT. Distances between pointers as they move, and the bytes held as the storage and the pointers
change (10_state.md R41 to R44). -/
namespace Sys2Proof.Machine

theorem Params.ptrPow (p : Params) : 2 ^ p.ptrW = 2 * p.depth := by
  rw [Params.ptrW, Params.depth, pow_succ]; ring

theorem Params.depth_pos (p : Params) : 0 < p.depth := by unfold Params.depth; positivity

/-- Moving the first pointer on by one adds one to the distance, where that does not wrap it. -/
theorem subW_addW_left {w a b : Nat} (ha : a < 2 ^ w) (hb : b < 2 ^ w) (h : subW w a b + 1 < 2 ^ w) :
    subW w (addW w a 1) b = subW w a b + 1 := by
  have h1 := addW_one ha
  have h2 := addW_lt w a 1
  rw [subW_of_lt h2 hb]
  rw [subW_of_lt ha hb] at h ⊢
  split at h1 <;> (repeat' split) <;> (split at h) <;> omega

/-- Moving the second pointer on by one takes one from the distance, where there is one to take. -/
theorem subW_addW_right {w a b : Nat} (ha : a < 2 ^ w) (hb : b < 2 ^ w) (h : 0 < subW w a b) :
    subW w a (addW w b 1) = subW w a b - 1 := by
  have h1 := addW_one hb
  have h2 := addW_lt w b 1
  rw [subW_of_lt ha h2]
  rw [subW_of_lt ha hb] at h ⊢
  split at h1 <;> (repeat' split) <;> (split at h) <;> omega

/-- Distances add up along three pointers in order round the ring. -/
theorem subW_add {w a b c : Nat} (ha : a < 2 ^ w) (hb : b < 2 ^ w) (hc : c < 2 ^ w)
    (h : subW w a b + subW w b c < 2 ^ w) : subW w a b + subW w b c = subW w a c := by
  rw [subW_of_lt ha hb, subW_of_lt hb hc] at h ⊢
  rw [subW_of_lt ha hc]
  (repeat' split) <;> (repeat' split at h) <;> omega

/-- The pointer `count` slots beyond `rbin` is `wbin`, as a slot index. -/
theorem State.slot_count (s : State) (hw : s.wbin < 2 ^ s.cfg.ptrW) (hr : s.rbin < 2 ^ s.cfg.ptrW) :
    (s.rbin + s.count) % s.cfg.depth = s.wbin % s.cfg.depth := by
  have h := addW_subW hw hr
  unfold State.count
  rw [addW, trunc] at h
  conv_rhs => rw [← h, Params.ptrPow, Nat.mod_mul_left_mod]

/-- The slot index of a pointer moved on by one. -/
theorem addW_mod_depth (p : Params) (a k : Nat) :
    (addW p.ptrW a 1 + k) % p.depth = (a + (k + 1)) % p.depth := by
  rw [addW, trunc, Params.ptrPow, Nat.add_mod, Nat.mod_mul_left_mod, ← Nat.add_mod]
  congr 1; omega

theorem slotOf_eq (p : Params) (a : Nat) : slotOf p a = a % p.depth := rfl

/-- Two slots of the FIFO at different distances below N are different slots. -/
theorem slot_ne {n r k c : Nat} (hk : k < c) (hc : c < n) : (r + k) % n ≠ (r + c) % n := by
  intro h
  have h1 : (c - k) % n = 0 := by
    have : (r + c) % n = (r + k + (c - k)) % n := by congr 1; omega
    rw [this, ← Nat.add_zero (r + k), Nat.add_assoc (r + k)] at h
    have := (Nat.ModEq.add_left_cancel' (r + k) (show (r + k) + 0 ≡ (r + k) + (c - k) [MOD n] by
      unfold Nat.ModEq; simpa using h))
    unfold Nat.ModEq at this
    simpa using this.symm
  rw [Nat.mod_eq_of_lt (by omega)] at h1
  omega

theorem State.contents_length (s : State) : s.contents.length = s.count := by simp [State.contents]

/-- An accepted byte goes to the end of the bytes held (20_memory.md R77). -/
theorem State.contents_enqueue (s : State) (b : Byte) (hw : s.wbin < 2 ^ s.cfg.ptrW)
    (hr : s.rbin < 2 ^ s.cfg.ptrW) (hm : s.mem.wf) (hc : s.count < s.cfg.depth) :
    (s.enqueue b).contents = s.contents ++ [b] := by
  have hp := Params.ptrPow s.cfg
  have h1 : (s.enqueue b).count = s.count + 1 := by
    simp only [State.count, State.enqueue_cfg, State.enqueue_wbin, State.enqueue_rbin]
    exact subW_addW_left hw hr (by unfold State.count at hc; omega)
  unfold State.contents
  rw [h1, List.range_succ, List.map_append]
  congr 1
  · apply List.map_congr_left
    intro k hk
    have hk := List.mem_range.mp hk
    simp only [State.enqueue_cfg, State.enqueue_rbin, State.enqueue_mem, slotOf_eq]
    rw [Memory.byteAt_write _ _ _ _ hm, if_neg]
    rw [← State.slot_count s hw hr]
    exact slot_ne hk hc
  · simp only [State.enqueue_cfg, State.enqueue_rbin, State.enqueue_mem, slotOf_eq, List.map_cons, List.map_nil]
    rw [Memory.byteAt_write _ _ _ _ hm, if_pos (State.slot_count s hw hr)]

/-- A pop takes the first of the bytes held (20_memory.md R77). -/
theorem State.contents_dequeue (s : State) (hw : s.wbin < 2 ^ s.cfg.ptrW) (hr : s.rbin < 2 ^ s.cfg.ptrW)
    (hc : 0 < s.count) : s.contents = s.headByte :: s.dequeue.contents := by
  have h1 : s.dequeue.count = s.count - 1 := by
    simp only [State.count, State.dequeue_cfg, State.dequeue_wbin, State.dequeue_rbin]
    exact subW_addW_right hw hr hc
  unfold State.contents
  rw [h1]
  obtain ⟨n, hn⟩ := Nat.exists_eq_succ_of_ne_zero (by omega : s.count ≠ 0)
  rw [hn, List.range_succ_eq_map, List.map_cons, List.map_map]
  congr 1
  simp only [Nat.succ_sub_one]
  apply List.map_congr_left
  intro k _
  simp only [Function.comp, State.dequeue_mem, State.dequeue_rbin, State.dequeue_cfg, addW_mod_depth]

end Sys2Proof.Machine
end

