-- ==== Sys2Proof/Laws/PerInstr.lean ====
section
/-! SUPPORT. Per instruction: the encoder puts the op's opcode, `sel` and `data` in their bits
(30_encoding.md R90). -/
namespace Sys2Proof

@[simp] theorem opcodeOf_makeWord (a b : Byte) (d : Half) : opcodeOf (makeWord a b d) = a := by
  apply BitVec.eq_of_getLsbD_eq
  intro i hi
  simp only [opcodeOf, makeWord, BitVec.getLsbD_extractLsb', BitVec.getLsbD_append]
  rw [if_neg (by omega), if_neg (by omega), show 24 + i - 16 - 8 = i by omega]
  simp [hi]

@[simp] theorem selOf_makeWord (a b : Byte) (d : Half) : selOf (makeWord a b d) = b := by
  apply BitVec.eq_of_getLsbD_eq
  intro i hi
  simp only [selOf, makeWord, BitVec.getLsbD_extractLsb', BitVec.getLsbD_append]
  simp [hi]

@[simp] theorem dataOf_makeWord (a b : Byte) (d : Half) : dataOf (makeWord a b d) = d := by
  apply BitVec.eq_of_getLsbD_eq
  intro i hi
  simp only [dataOf, makeWord, BitVec.getLsbD_extractLsb', BitVec.getLsbD_append]
  simp [hi]

/-- A word is made of its three fields (30_encoding.md R90). -/
theorem makeWord_fields (w : Word) : makeWord (opcodeOf w) (selOf w) (dataOf w) = w := by
  apply BitVec.eq_of_getLsbD_eq
  intro i hi
  simp only [makeWord, opcodeOf, selOf, dataOf, BitVec.getLsbD_append, BitVec.getLsbD_extractLsb']
  by_cases h1 : i < 16
  · simp [h1]
  · by_cases h2 : i - 16 < 8
    · simp [h1, h2]; congr 1; omega
    · have h3 : i - 16 - 8 < 8 := by omega
      simp [h1, h2, h3]; congr 1; omega

namespace Laws.EncodedFields

/-- The three fields of the encoded word are the op's (30_encoding.md R90, R91, R96). -/
def Statement (i : Instr) : Prop :=
  opcodeOf (encode i) = i.opcode ∧ selOf (encode i) = i.selField ∧ dataOf (encode i) = i.dataField

theorem ofEncode (i : Instr) : Statement i := by simp [Statement, encode]

theorem fifoPush (b : Byte) : Statement (.fifoPush b) := ofEncode _
theorem fifoPop : Statement (.fifoPop) := ofEncode _
theorem fifoEmpty : Statement (.fifoEmpty) := ofEncode _
theorem fifoFull : Statement (.fifoFull) := ofEncode _
theorem fifoRcount : Statement (.fifoRcount) := ofEncode _
theorem fifoWcount : Statement (.fifoWcount) := ofEncode _
theorem fifoOvfcnt : Statement (.fifoOvfcnt) := ofEncode _
theorem fifoOvfclr : Statement (.fifoOvfclr) := ofEncode _
theorem fifoUnflag : Statement (.fifoUnflag) := ofEncode _
theorem fifoUnfclr : Statement (.fifoUnfclr) := ofEncode _
theorem pwmSet (ch : Channel) (level : Half) : Statement (.pwmSet ch level) := ofEncode _
theorem pwmGet (ch : Channel) : Statement (.pwmGet ch) := ofEncode _
theorem pwmPower : Statement (.pwmPower) := ofEncode _
theorem relaySet (unlock : Bool) : Statement (.relaySet unlock) := ofEncode _
theorem relayGet : Statement (.relayGet) := ofEncode _
theorem tonePitch (pitch : Half) : Statement (.tonePitch pitch) := ofEncode _
theorem toneGetpitch : Statement (.toneGetpitch) := ofEncode _
theorem toneInit : Statement (.toneInit) := ofEncode _
theorem toneOn : Statement (.toneOn) := ofEncode _
theorem toneOff : Statement (.toneOff) := ofEncode _
theorem toneStatus : Statement (.toneStatus) := ofEncode _
end Laws.EncodedFields

end Sys2Proof
end

