-- ==== Sys2Proof/Laws/Schedule.lean ====
section
/-! SUPPORT. Runs of events taken apart and put together, and what stays the same along them: the
parameters, and the place of the schedule. -/
namespace Sys2Proof.Machine

/-! ### Runs joined -/

@[simp] theorem afterEvents_nil (s : State) : afterEvents [] s = s := rfl

@[simp] theorem afterEvents_cons (e : Event) (es : List Event) (s : State) :
    afterEvents (e :: es) s = afterEvents es (afterEvent e s) := rfl

theorem afterEvents_append (es fs : List Event) (s : State) :
    afterEvents (es ++ fs) s = afterEvents fs (afterEvents es s) := by
  induction es generalizing s with
  | nil => rfl
  | cons e es ih => exact ih _

theorem accepted_append (es fs : List Event) (s : State) :
    accepted (es ++ fs) s = accepted es s ++ accepted fs (afterEvents es s) := by
  induction es generalizing s with
  | nil => rfl
  | cons e es ih => simp [accepted, ih]

theorem returned_append (es fs : List Event) (s : State) :
    returned (es ++ fs) s = returned es s ++ returned fs (afterEvents es s) := by
  induction es generalizing s with
  | nil => rfl
  | cons e es ih => simp [returned, ih]

/-! ### Schedules -/

@[simp] theorem Schedule.upTo_zero (sched : Schedule) : sched.upTo 0 = [] := rfl

theorem Schedule.upTo_succ (sched : Schedule) (n : Nat) :
    sched.upTo (n + 1) = sched.upTo n ++ [sched n] := by
  simp [Schedule.upTo, List.range_succ]

@[simp] theorem Schedule.stateAt_zero (sched : Schedule) (s : State) : sched.stateAt s 0 = s := rfl

theorem Schedule.stateAt_succ (sched : Schedule) (s : State) (n : Nat) :
    sched.stateAt s (n + 1) = afterEvent (sched n) (sched.stateAt s n) := by
  simp [Schedule.stateAt, Schedule.upTo_succ, afterEvents_append]

theorem Schedule.accepted_succ (sched : Schedule) (s : State) (n : Nat) :
    accepted (sched.upTo (n + 1)) s = accepted (sched.upTo n) s ++ acceptedBy (sched n) (sched.stateAt s n) := by
  simp [Schedule.stateAt, Schedule.upTo_succ, accepted_append, accepted]

theorem Schedule.returned_succ (sched : Schedule) (s : State) (n : Nat) :
    returned (sched.upTo (n + 1)) s = returned (sched.upTo n) s ++ returnedBy (sched n) (sched.stateAt s n) := by
  simp [Schedule.stateAt, Schedule.upTo_succ, returned_append, returned]

/-! ### What no event changes -/

/-- No event changes a parameter (00_scope.md R5). -/
@[simp] theorem afterEvent_cfg (e : Event) (s : State) : (afterEvent e s).cfg = s.cfg := by
  rcases afterEvent_cases e s with ⟨_, _, i, _, _, h⟩ | ⟨_, _, h⟩ | ⟨_, _, h⟩ | ⟨_, h⟩ | ⟨_, h⟩ | ⟨_, h⟩ |
    ⟨_, h⟩ | ⟨_, h⟩ <;> rw [h]
  · cases i <;> simp only [opEffect] <;> (try split) <;> simp
  all_goals simp

@[simp] theorem afterEvents_cfg (es : List Event) (s : State) : (afterEvents es s).cfg = s.cfg := by
  induction es generalizing s with
  | nil => rfl
  | cons e es ih => simp [ih]

/-- The op a word spells depends on the parameters alone. -/
theorem spells_congr {e : Event} {s t : State} {i : Instr} (h : s.cfg = t.cfg) :
    spells e s i ↔ spells e t i := by simp [spells, h]

/-- An op neither reads nor writes what is still to come. -/
theorem opEffect_pending (i : Instr) (s : State) (l : List Event) :
    opEffect i { s with pending := l } = { opEffect i s with pending := l } := by
  cases i with
  | fifoPush b =>
    have hw : State.wcount { s with pending := l } = s.wcount := rfl
    by_cases h : s.wcount = s.cfg.depth <;> simp only [opEffect, hw, h, if_true, if_false] <;> rfl
  | fifoPop =>
    have hr : State.rcount { s with pending := l } = s.rcount := rfl
    by_cases h : s.rcount = 0 <;> simp only [opEffect, hr, h, if_true, if_false] <;> rfl
  | toneOn =>
    cases s
    rename_i armed _ _ _ pitchSet _ _ _ _
    cases armed <;> cases pitchSet <;> rfl
  | _ => rfl

/-- An event neither reads nor writes what is still to come. -/
theorem afterEvent_pending (e : Event) (s : State) (l : List Event) :
    afterEvent e { s with pending := l } = { afterEvent e s with pending := l } := by
  cases e with
  | op port w =>
    cases h : decode s.cfg port w with
    | ok i =>
      rw [afterEvent_op_ok h, afterEvent_op_ok (s := { s with pending := l }) h, opEffect_pending]
    | error d =>
      rw [afterEvent_op_error h, afterEvent_op_error (s := { s with pending := l }) h]
      cases d <;> cases port <;> rfl
  | toneTmr =>
    simp only [afterEvent_toneTmr]
    by_cases ha : s.armed = true
    · by_cases h : s.tcnt + 1 ≥ s.effPitch
      · rw [show s.toneTmr = _ from (if_pos ha).trans (if_pos h)]
        exact (if_pos ha).trans (if_pos h)
      · rw [show s.toneTmr = _ from (if_pos ha).trans (if_neg h)]
        exact (if_pos ha).trans (if_neg h)
    · rw [show s.toneTmr = _ from if_neg ha]
      exact if_neg ha
  | _ => rfl

end Sys2Proof.Machine
end

