-- ==== Sys2Proof/Tests/Slice0.lean ====
section
/-! SUPPORT. Tests of the author's own work. Every expected value is from spec/95_test_vectors.md (the
vector is named), or worked out by hand from the rule named. The witnesses at the end show a state and
operands that meet the hypotheses of each statement. -/
namespace Sys2Proof.Machine

/-! ### Small states -/

/-- The state with other parameters than the defaults: `PWM_W`, `PITCH_W`, `TONE_IDLE`, `PITCH_MODE`. -/
def testParams (pwmW pitchW : Nat) (idle : Bool) (mode : PitchMode) : Params :=
  ⟨2, 16, pwmW, pitchW, 2 ^ pwmW - 1, idle, mode⟩

/-- The state of vector F7: four accepted pushes after reset. -/
def fullState : State :=
  { State.reset with
    wbin := 4, wgray := 6, mem := [(0, 0x41#8), (1, 0x42#8), (2, 0x43#8), (3, 0x44#8)] }

/-- The state of vector F8 after its `SYNC_W2R`: the consumer sees the four bytes. -/
def visibleState : State := { fullState with rqWgray := 6 }

/-- The state of vector T1: pitch 3 written and the generator armed. -/
def toneState (p : Params) : State :=
  { State.resetWith p with pitch := 3, pact := 3, pitchSet := true, armed := true }

/-- The state after one step that presents the word. -/
def present (s : State) (w : Word) : State := advance (presentWord s w)

/-- The state after one step of the event. -/
def happen (s : State) (e : Event) : State := advance { s with pending := [e] }

/-! ### Well-formedness: each check refuses an ill-formed op (30_encoding.md R91) -/

theorem test_wf_level_256_needs_nine_bits :
    (Instr.pwmSet .ch0 256#16).wellFormed Params.default = false := by decide
theorem test_wf_level_255 : (Instr.pwmSet .ch0 255#16).wellFormed Params.default = true := by decide
theorem test_wf_pitch_4096_needs_thirteen_bits :
    (Instr.tonePitch 4096#16).wellFormed (testParams 8 12 false .latch) = false := by decide
theorem test_wf_pitch_4095 :
    (Instr.tonePitch 4095#16).wellFormed (testParams 8 12 false .latch) = true := by decide

/-! ### Decoding: one word per op, written out from 30_encoding.md R96 -/

/-- D-1 -/
theorem test_decode_fifoPush : decode Params.default .w 0x10000041#32 = .ok (.fifoPush 0x41#8) := by decide
/-- D-5 -/
theorem test_decode_fifoPop : decode Params.default .r 0x11000000#32 = .ok (.fifoPop) := by decide
/-- R96 -/
theorem test_decode_fifoEmpty : decode Params.default .r 0x12000000#32 = .ok (.fifoEmpty) := by decide
/-- R96 -/
theorem test_decode_fifoFull : decode Params.default .w 0x13000000#32 = .ok (.fifoFull) := by decide
/-- D-11 -/
theorem test_decode_fifoRcount : decode Params.default .r 0x14000000#32 = .ok (.fifoRcount) := by decide
/-- D-10 -/
theorem test_decode_fifoWcount : decode Params.default .w 0x15000000#32 = .ok (.fifoWcount) := by decide
/-- R96 -/
theorem test_decode_fifoOvfcnt : decode Params.default .w 0x16000000#32 = .ok (.fifoOvfcnt) := by decide
/-- R96 -/
theorem test_decode_fifoOvfclr : decode Params.default .w 0x17000000#32 = .ok (.fifoOvfclr) := by decide
/-- R96 -/
theorem test_decode_fifoUnflag : decode Params.default .r 0x18000000#32 = .ok (.fifoUnflag) := by decide
/-- R96 -/
theorem test_decode_fifoUnfclr : decode Params.default .r 0x19000000#32 = .ok (.fifoUnfclr) := by decide
/-- D-12 -/
theorem test_decode_pwmSet : decode Params.default .r 0x20020080#32 = .ok (.pwmSet .ch2 0x80#16) := by decide
/-- D-19 -/
theorem test_decode_pwmGet : decode Params.default .r 0x21010000#32 = .ok (.pwmGet .ch1) := by decide
/-- R96 -/
theorem test_decode_pwmPower : decode Params.default .r 0x22000000#32 = .ok (.pwmPower) := by decide
/-- D-22 -/
theorem test_decode_relaySet : decode Params.default .r 0x23000001#32 = .ok (.relaySet true) := by decide
/-- R96 -/
theorem test_decode_relayGet : decode Params.default .r 0x24000000#32 = .ok (.relayGet) := by decide
/-- D-24 -/
theorem test_decode_tonePitch : decode Params.default .r 0x3000FFFF#32 = .ok (.tonePitch 0xFFFF#16) := by decide
/-- R96 -/
theorem test_decode_toneGetpitch : decode Params.default .r 0x31000000#32 = .ok (.toneGetpitch) := by decide
/-- R96 -/
theorem test_decode_toneInit : decode Params.default .r 0x32000000#32 = .ok (.toneInit) := by decide
/-- R96 -/
theorem test_decode_toneOn : decode Params.default .r 0x33000000#32 = .ok (.toneOn) := by decide
/-- R96 -/
theorem test_decode_toneOff : decode Params.default .r 0x34000000#32 = .ok (.toneOff) := by decide
/-- D-27 -/
theorem test_decode_toneStatus : decode Params.default .r 0x35000000#32 = .ok (.toneStatus) := by decide

/-- R96, read from the op to its word. -/
theorem test_encode_words :
    encode (.fifoPush 0xFF#8) = 0x100000FF#32 ∧ encode (.pwmSet .ch1 0#16) = 0x20010000#32 ∧
    encode (.relaySet false) = 0x23000000#32 ∧ encode (.tonePitch 0x100#16) = 0x30000100#32 := by decide

/-! Reserved and misplaced words, at the edge of each clause of R91, R92, R98, R99 -/

/-- D-28, R99: the opcodes next to the listed ones. -/
theorem test_reserved_opcodes :
    [0x00000000#32, 0x0F000000#32, 0x1A000000#32, 0x1F000000#32, 0x25000000#32, 0x2F000000#32,
      0x36000000#32, 0xFF000000#32].map (fun w => (decode Params.default .w w, decode Params.default .r w)) =
    List.replicate 8 (.error .reserved, .error .reserved) := by decide
/-- D-2, D-4, D-6, D-16, D-21, D-23, D-26. -/
theorem test_must_be_zero :
    decode Params.default .w 0x10000141#32 = .error .reserved ∧
    decode Params.default .w 0x100100FF#32 = .error .reserved ∧
    decode Params.default .r 0x11000001#32 = .error .reserved ∧
    decode Params.default .r 0x20000100#32 = .error .reserved ∧
    decode Params.default .r 0x21000001#32 = .error .reserved ∧
    decode Params.default .r 0x23000002#32 = .error .reserved ∧
    decode Params.default .r 0x30010000#32 = .error .reserved := by decide
/-- D-14, D-15, D-20. -/
theorem test_channel_three :
    decode Params.default .r 0x20030000#32 = .error .reserved ∧
    decode Params.default .r 0x20040000#32 = .error .reserved ∧
    decode Params.default .r 0x21030000#32 = .error .reserved := by decide
/-- D-17, D-18, D-25: the masks follow the parameters. -/
theorem test_masks_follow_parameters :
    decode (testParams 4 16 false .latch) .r 0x2000000F#32 = .ok (.pwmSet .ch0 15#16) ∧
    decode (testParams 4 16 false .latch) .r 0x20000010#32 = .error .reserved ∧
    decode (testParams 8 12 false .latch) .r 0x3000FFFF#32 = .error .reserved := by decide
/-- D-3, D-7, D-8, D-9, D-33. -/
theorem test_wrong_port :
    decode Params.default .r 0x10000041#32 = .error .wrongPort ∧
    decode Params.default .w 0x11000000#32 = .error .wrongPort ∧
    decode Params.default .w 0x12000000#32 = .error .wrongPort ∧
    decode Params.default .r 0x13000000#32 = .error .wrongPort ∧
    decode Params.default .w 0x33000000#32 = .error .wrongPort := by decide
/-- R96: the table's masks are those of the default parameters. -/
theorem test_table_masks : pwmSetMask Params.default = 0xFFFCFF00#32 ∧
    pitchMask Params.default = 0xFFFF0000#32 := by decide
/-- R96, R98: `decodeTableWord` takes the port from the word. -/
theorem test_decode_table_word : decodeTableWord 32 0x10000041 = some (.fifoPush 0x41#8) ∧
    decodeTableWord 32 0x21020000 = some (.pwmGet .ch2) ∧ decodeTableWord 32 0x21030000 = none := by decide

/-! ### Gray code (95_test_vectors.md, conventions) -/

theorem test_gray_table : (List.range 8).map gray = [0b000, 0b001, 0b011, 0b010, 0b110, 0b111, 0b101, 0b100] := by
  decide
theorem test_bin_table : ([0b000, 0b001, 0b011, 0b010, 0b110, 0b111, 0b101, 0b100].map (bin 3)) = List.range 8 := by
  decide

/-! ### FIFO ops -/

/-- F10: the write pointer wraps. -/
theorem test_push_wraps :
    let t := present { State.reset with wbin := 7, wgray := 4, wqRgray := 6, rbin := 4, rgray := 6, rqWgray := 4 }
      0x10000099#32
    t.mem = [(3, 0x99#8)] ∧ t.wbin = 0 ∧ t.wgray = 0 ∧ t.full = true ∧ t.fullGray = true := by decide
/-- F13: a full view drops the byte and `ovf` stays saturated. -/
theorem test_push_full_saturates :
    let t := present { fullState with ovf := 0xFFFF } 0x10000010#32
    t.ovf = 0xFFFF ∧ t.mem = fullState.mem ∧ t.wbin = 4 := by decide
/-- F15: the read pointer wraps. -/
theorem test_pop_wraps :
    let t := present { State.reset with rbin := 7, rgray := 4, rqWgray := 0, mem := [(3, 0x99#8)] } 0x11000000#32
    t.rResult = some 0x199#32 ∧ t.rbin = 0 ∧ t.rgray = 0 := by decide
/-- F5: a pop of an empty view. -/
theorem test_pop_empty :
    let t := present State.reset 0x11000000#32
    t.unf = true ∧ t.viol.has .popWhenEmpty = true ∧ t.viol.has .pitchUnset = false ∧ t.rbin = 0 := by decide
/-- F2, F3. -/
theorem test_empty : (present fullState 0x12000000#32).rResult = some 1#32 ∧
    (present visibleState 0x12000000#32).rResult = some 0#32 := by decide
/-- F7. -/
theorem test_full : (present fullState 0x13000000#32).wResult = some 1#32 ∧
    (present State.reset 0x13000000#32).wResult = some 0#32 := by decide
/-- F11. -/
theorem test_rcount :
    (present { State.reset with rbin := 4, rgray := 6, wbin := 0, rqWgray := 0 } 0x14000000#32).rResult =
      some 4#32 := by decide
/-- F9: four pushed, one pop seen. -/
theorem test_wcount : (present { fullState with wqRgray := 1 } 0x15000000#32).wResult = some 3#32 := by decide
/-- F13. -/
theorem test_ovfcnt : (present { State.reset with ovf := 0xFFFF } 0x16000000#32).wResult = some 0xFFFF#32 := by
  decide
/-- F14. -/
theorem test_ovfclr : (present { State.reset with ovf := 3 } 0x17000000#32).ovf = 0 := by decide
/-- F6. -/
theorem test_unflag : (present { State.reset with unf := true } 0x18000000#32).rResult = some 1#32 := by decide
/-- F6: the violation record is unchanged. -/
theorem test_unfclr :
    let t := present { State.reset with unf := true, viol := ⟨true, false⟩ } 0x19000000#32
    t.unf = false ∧ t.viol.has .popWhenEmpty = true := by decide
/-- F3, and R121's example. -/
theorem test_synchronisers : (happen fullState .syncW2R).rqWgray = 6 ∧
    (happen { fullState with rbin := 1, rgray := 1 } .syncR2W).wqRgray = 1 := by decide

/-! ### PWM and relay ops -/

/-- W9: the output follows in the same step. -/
theorem test_pwm_set_mid_frame :
    let s := { State.resetWith (testParams 2 16 false .latch) with pwmCnt := 1 }
    s.chOut .ch1 = true ∧ (present s 0x20010000#32).chOut .ch1 = false := by decide
/-- W5. -/
theorem test_pwm_get : (present State.reset 0x21020000#32).rResult = some 0xFF#32 ∧
    State.reset.chOutBits = 0b111#3 := by decide
/-- W10. -/
theorem test_pwm_power :
    (present { State.reset with level := ⟨0, 0, 0x40⟩ } 0x22000000#32).level = ⟨255, 255, 255⟩ := by decide
/-- W12: the other reading of "active-low-off". -/
theorem test_pwm_power_tone_off_zero :
    (present (State.resetWith ⟨2, 16, 8, 16, 0, false, .latch⟩) 0x22000000#32).level = ⟨255, 255, 0⟩ := by
  decide
/-- W7, W8. -/
theorem test_relay_set : (present State.reset 0x23000001#32).relayN = false ∧
    (present { State.reset with relayOpen := true } 0x23000000#32).relayN = true := by decide
/-- W7. -/
theorem test_relay_get :
    (present { State.reset with relayOpen := true } 0x24000000#32).rResult = some 1#32 := by decide
/-- W6. -/
theorem test_time_base_wraps :
    (happen { State.resetWith (testParams 2 16 false .latch) with pwmCnt := 2 } .pwmTb).pwmCnt = 0 := by decide
/-- W2: level 1 of 3. -/
theorem test_channel_duty : (List.range 3).map (fun k =>
    { State.resetWith (testParams 2 16 false .latch) with level := ⟨1, 3, 3⟩, pwmCnt := k }.chOut .ch0) =
      [true, false, false] := by decide

/-! ### Tone ops -/

/-- R163's example. -/
theorem test_tone_pitch :
    let t := present State.reset 0x30000003#32
    t.pitch = 3 ∧ t.pitchSet = true := by decide
/-- T5: the register is read back, not the latched value. -/
theorem test_tone_getpitch :
    (present { toneState Params.default with pitch := 1 } 0x31000000#32).rResult = some 1#32 := by decide
/-- T12. -/
theorem test_tone_init :
    let t := present { toneState Params.default with drive := true } 0x32000000#32
    t.armed = false ∧ t.drive = false ∧ t.pitch = 3 ∧ t.pact = 3 := by decide
/-- T7: arming with no pitch since reset. -/
theorem test_tone_on_unset :
    let t := present State.reset 0x33000000#32
    t.armed = true ∧ t.pact = 0 ∧ t.viol.has .pitchUnset = true := by decide
/-- T8: a second `TONE.ON` keeps the phase. -/
theorem test_tone_on_twice :
    let t := present { toneState Params.default with tcnt := 1, pitch := 9 } 0x33000000#32
    t.tcnt = 1 ∧ t.pact = 3 := by decide
/-- T9. -/
theorem test_tone_off :
    let t := present { toneState Params.default with drive := true } 0x34000000#32
    t.armed = false ∧ t.drive = false := by decide
/-- T11. -/
theorem test_tone_status :
    (present { toneState Params.default with drive := true } 0x35000000#32).rResult = some 3#32 := by decide
/-- T15: `TONE_IDLE = 1`. -/
theorem test_tone_status_idle_high :
    (present (State.resetWith (testParams 8 16 true .latch)) 0x35000000#32).rResult = some 2#32 := by decide
/-- T1: the third tick toggles, the first does not. -/
theorem test_tone_tick :
    (happen (toneState Params.default) .toneTmr).tcnt = 1 ∧
    (happen { toneState Params.default with tcnt := 2 } .toneTmr).drive = true := by decide
/-- T5, T6: after a write of pitch 1, `LATCH` counts on and `LIVE` toggles. -/
theorem test_tone_tick_modes :
    (happen { toneState Params.default with tcnt := 1, pitch := 1 } .toneTmr).tcnt = 2 ∧
    (happen { toneState (testParams 8 16 false .live) with tcnt := 1, pitch := 1 } .toneTmr).drive = true := by
  decide

/-! ### Reset, refusal, cycles, assembler -/

/-- X1, F17: the reset event. -/
theorem test_reset_event :
    let t := happen { visibleState with relayOpen := true, pitchSet := true, viol := ⟨true, false⟩, refused := true }
      .reset
    t.wbin = 0 ∧ t.rqWgray = 0 ∧ t.relayOpen = false ∧ t.pitchSet = false ∧ t.mem = visibleState.mem ∧
      t.viol = ⟨true, false⟩ ∧ t.refused = true := by decide
/-- X3: reset wins its cycle. -/
theorem test_reset_wins : (WCycle.after ⟨true, some 0x10000041#32, true⟩ State.reset).wbin = 0 := by decide
/-- R202: in one cycle `TONE.ON` comes before the tick, which toggles (pitch 1). -/
theorem test_cycle_op_before_tick :
    (RCycle.after ⟨false, some 0x33000000#32, true, true, true⟩
      { State.reset with pitch := 1, pitchSet := true }).drive = true := by decide
/-- D-6: no state change, result word 0, the mark set. -/
theorem test_refused_word :
    present fullState 0x11000001#32 = { fullState with refused := true, rResult := some 0#32 } := by decide
/-- R201. -/
theorem test_partial_reset : (happen State.reset (.partialReset .read)).refused = true := by decide
/-- R102, R103 and 95_test_vectors.md Part 3, common host code. -/
theorem test_assembler :
    assemble Params.default "PWM.OFF 1" = some 0x200100FF#32 ∧
    assemble Params.default "PWM.SET 2, 0x80" = some 0x20020080#32 ∧
    assemble Params.default "RELAY.UNLOCK" = some 0x23000001#32 ∧
    assemble Params.default "TONE.PITCH 0x0100" = some 0x30000100#32 ∧
    assemble Params.default "FIFO.PUSH 'x'" = some 0x10000078#32 ∧
    assemble Params.default "FIFO.PUSH '\\n'" = some 0x1000000A#32 := by decide
/-- R102: an operand out of range, and a mnemonic in the wrong case. -/
theorem test_assembler_errors :
    assemble Params.default "FIFO.PUSH 256" = none ∧ assemble Params.default "PWM.GET 3" = none ∧
    assemble Params.default "relay.get" = none := by decide

/-! ### Witnesses: states and operands that meet the hypotheses of the statements -/

theorem witness_legal_and_wellFormed : Params.default.Legal ∧
    (Instr.pwmSet .ch2 0xFF#16).wellFormed Params.default = true ∧
    (testParams 2 1 true .live).Legal ∧ (⟨15, 32, 16, 16, 65535, false, .latch⟩ : Params).Legal := by decide
/-- `DecoderFollowsOpcodeMap`: a row hit at its port, a row hit at the other port, no row hit. -/
theorem witness_opcode_map :
    ((opRows Params.default).filter (·.hits 0x20020080#32)).length = 1 ∧
    ((opRows Params.default).filter (·.hits 0x10000041#32)).length = 1 ∧
    decode Params.default .r 0x10000041#32 = .error .wrongPort ∧
    ∀ row ∈ opRows Params.default, row.hits 0x20030000#32 = false := by decide
/-- `StepRunsTheDecodedOp`, `StepRefusesUndecodedWords`: a scheduled word that decodes, and ones that do not. -/
theorem witness_scheduled_word :
    (presentWord State.reset 0x10000041#32).pending = .op .w 0x10000041#32 :: [] ∧
    decode State.reset.cfg .w 0x10000041#32 = .ok (.fifoPush 0x41#8) ∧
    decode State.reset.cfg .r 0x10000041#32 = .error .wrongPort ∧
    decode State.reset.cfg .w 0x10000141#32 = .error .reserved ∧ State.reset.cfg.Legal := by decide
/-- The statements on a scheduled internal event or reset. -/
theorem witness_scheduled_events : ∀ e ∈ [Event.syncW2R, .syncR2W, .pwmTb, .toneTmr, .reset, .partialReset .write],
    ({ State.reset with pending := [e] } : State).pending = e :: [] ∧ State.reset.cfg.Legal := by decide
/-- `IllegalParametersAreRefused`: each bound, just passed. -/
theorem witness_illegal : ∀ p ∈ [(⟨0, 16, 8, 16, 0, false, .latch⟩ : Params), ⟨16, 16, 8, 16, 0, false, .latch⟩,
    ⟨2, 0, 8, 16, 0, false, .latch⟩, ⟨2, 33, 8, 16, 0, false, .latch⟩, ⟨2, 16, 1, 16, 0, false, .latch⟩,
    ⟨2, 16, 17, 16, 0, false, .latch⟩, ⟨2, 16, 8, 0, 0, false, .latch⟩, ⟨2, 16, 8, 17, 0, false, .latch⟩,
    ⟨2, 16, 8, 16, 256, false, .latch⟩], ¬ p.Legal := by decide
/-- `EmptyScheduleTakesFreeEvent`. -/
theorem witness_empty_schedule : State.reset.pending = [] ∧ State.reset.cfg.Legal := by decide
/-- The statements that assume the invariant: at power-on, with a full FIFO, with an armed generator. -/
theorem witness_inv_reset : State.reset.Inv := by decide
theorem witness_inv_full : visibleState.Inv ∧ visibleState.count = 4 ∧ visibleState.full = true := by decide
theorem witness_inv_tone : (toneState Params.default).Inv ∧ (toneState (testParams 4 3 true .live)).cfg.Legal := by
  decide
/-- A step with a next state from a state that meets the invariant (`EveryStepKeepsInvariant`,
`ViewsBoundTheTrueCount`), and a refused one (`GhostRecordsPersist`). -/
theorem witness_step_from_inv : ({ visibleState with pending := [.op .r 0x11000000#32] } : State).Inv ∧
    (match step { visibleState with pending := [.op .r 0x11000000#32] } with
      | .next t => decide (t.count = 3)
      | _ => false) = true ∧
    (match step { visibleState with pending := [.op .r 0x11000001#32] } with
      | .refused r => decide (r = .reserved .r 0x11000001#32)
      | _ => false) = true := by decide
/-- `PushAcceptsOrDropsNewest`: room, and none. -/
theorem witness_push : State.reset.mem.wf ∧ State.reset.wcount ≠ 2 ^ State.reset.cfg.addrW ∧
    fullState.mem.wf ∧ fullState.wcount = 2 ^ fullState.cfg.addrW := by decide
/-- `PopTakesOldestOrUnderflows`: a byte in view, and none, the second with bytes held (lag). -/
theorem witness_pop : visibleState.rcount ≠ 0 ∧ visibleState.mem.read 0 = some 0x41#8 ∧
    fullState.rcount = 0 ∧ fullState.count = 4 := by decide
/-- The trace statements: a run without reset that accepts and returns a byte. -/
theorem witness_trace :
    let es := [Event.op .w 0x10000041#32, .syncW2R, .op .r 0x11000000#32]
    State.reset.Inv ∧ Event.reset ∉ es ∧ State.reset.contents = [] ∧ accepted es State.reset = [0x41#8] ∧
      returned es State.reset = [0x41#8] := by decide
/-- `DropsAreCounted`: a run that drops a byte and clears nothing. -/
theorem witness_drops :
    let es := [Event.op .w 0x10000045#32]
    clearsOvfIn es fullState = false ∧ (afterEvents es fullState).ovf = 1 ∧ offered es fullState = 1 ∧
      accepted es fullState = [] := by decide
/-- `PushIsVisibleOnlyAfterSync`, `SlotIsReusedOnlyAfterSync`. -/
theorem witness_no_sync :
    visibleState.Inv ∧ Event.reset ∉ [Event.op .r 0x11000000#32] ∧
    Event.syncW2R ∉ [Event.op .r 0x11000000#32] ∧ Event.syncR2W ∉ [Event.op .r 0x11000000#32] ∧
    visibleState.empty = false ∧ State.reset.full = false ∧
    returned [Event.op .r 0x11000000#32] visibleState = [0x41#8] := by decide
/-- `PolledFlagsAreReliable`: a 0 read from each query, then a run that takes other ops of the port. -/
theorem witness_polled :
    (∃ t, exec .fifoEmpty visibleState = .next t ∧ t.rResult = some 0#32) ∧
    (∃ t, exec .fifoFull State.reset = .next t ∧ t.wResult = some 0#32) ∧
    (∀ e ∈ [Event.op .r 0x14000000#32, .syncR2W], ¬ spells e visibleState .fifoPop) ∧
    (∀ e ∈ [Event.op .w 0x15000000#32, .reset], ∀ b, ¬ spells e State.reset (.fifoPush b)) := by
  have h1 : decode visibleState.cfg .r 0x14000000#32 = .ok .fifoRcount := by decide
  have h2 : decode State.reset.cfg .w 0x15000000#32 = .ok .fifoWcount := by decide
  refine ⟨⟨_, rfl, by decide⟩, ⟨_, rfl, by decide⟩, ?_, ?_⟩ <;> simp [spells, h1, h2]
/-- `ChannelDutyOverAFrame`: levels 0, between, and `PWM_MAX`. -/
theorem witness_levels :
    let s := { State.resetWith (testParams 2 16 false .latch) with level := ⟨0, 1, 3⟩, pwmCnt := 1 }
    s.Inv ∧ s.level.get .ch0 = 0 ∧ s.level.get .ch1 = 1 ∧ s.level.get .ch2 = 2 ^ s.cfg.pwmW - 1 := by decide
/-- `ToneTickCountsAndToggles`, `ToneHalfPeriod`: disarmed; armed below and at the pitch. -/
theorem witness_tone : State.reset.armed = false ∧ (toneState Params.default).armed = true ∧
    (toneState Params.default).tcnt = 0 ∧ (toneState Params.default).effPitch = 3 ∧
    ({ toneState Params.default with tcnt := 2 } : State).Inv := by decide
/-- `ToneOnArmsOnce`, `PitchWriteAndEffectivePitch`: each clause. -/
theorem witness_tone_on : State.reset.armed = false ∧ State.reset.pitchSet = false ∧
    ({ State.reset with pitchSet := true } : State).armed = false ∧ State.reset.cfg.pitchMode = .latch ∧
    (toneState (testParams 8 16 false .live)).cfg.pitchMode = .live ∧
    (1#16).toNat % 2 ^ 16 ≤ (toneState (testParams 8 16 false .live)).tcnt + 1 := by decide
/-- `OnlyRelaySetAndResetMoveRelay`, `FlagsChangeOnlyAsListed`: events that move the relay and each flag. -/
theorem witness_changes :
    (afterEvent (.op .r 0x23000001#32) State.reset).relayOpen ≠ State.reset.relayOpen ∧
    (afterEvent (.op .r 0x11000000#32) State.reset).unf ≠ State.reset.unf ∧
    (afterEvent (.op .w 0x10000000#32) fullState).ovf ≠ fullState.ovf ∧
    (afterEvent .reset (toneState Params.default)).armed ≠ (toneState Params.default).armed := by decide
/-- `PortsDependOnTheirOwnDomain`: two different states that agree on one side, one pair with an empty
consumer view (`witness_pop`) and one with a written byte in view. -/
theorem witness_sides : SameReadSide fullState { fullState with wbin := 5, ovf := 7 } ∧
    SameReadSide visibleState { visibleState with wbin := 5, ovf := 7 } ∧
    SameWriteSide fullState { fullState with rbin := 1, armed := true } := by
  refine ⟨?_, ?_, ?_⟩ <;> constructor <;> rfl
theorem witness_pop_written : visibleState.rcount ≠ 0 ∧
    (visibleState.mem.read (visibleState.rbin % 2 ^ visibleState.cfg.addrW)).isSome := by decide
/-- `OpsAreIdempotentButPushAndPop`. -/
theorem witness_idempotent : (∀ b, Instr.toneOn ≠ .fifoPush b) ∧ Instr.toneOn ≠ .fifoPop := by simp
/-- `BinaryFromGrayBits`, `GrayIncrementChangesOneBit`: at the top of the range, where the pointer wraps. -/
theorem witness_gray : 0b100 < 2 ^ (2 + 1) ∧ 0b100 < 2 ^ 3 ∧ 0 < 3 ∧ 7 < 2 ^ 3 ∧ gray 7 ^^^ gray (addW 3 7 1) = 2 ^ 2 := by decide

/-! ### Schedules -/

/-- Every agent but `ENV` in turn, each query answered and each internal step taken. -/
def roundRobin : Schedule := fun n =>
  match n % 6 with
  | 0 => .op .w 0x13000000#32
  | 1 => .op .r 0x12000000#32
  | 2 => .syncW2R
  | 3 => .syncR2W
  | 4 => .pwmTb
  | _ => .toneTmr

/-- The place of an agent in `roundRobin`. -/
def turnOf : Agent → Nat
  | .producer => 0
  | .controller => 1
  | .syncW2R => 2
  | .syncR2W => 3
  | .pwmTb => 4
  | .toneTmr => 5
  | .env => 6

/-- The schedule statements: a weakly fair schedule without reset, from a state that meets the invariant
(`witness_inv_reset`). -/
theorem witness_fair : roundRobin.WeaklyFair State.reset ∧ ∀ k, roundRobin k ≠ .reset := by
  refine ⟨fun a n h => ⟨6 * n + turnOf a, by omega, ?_⟩, fun k => ?_⟩
  · have ha := (h n le_rfl).1
    cases a <;> simp [roundRobin, turnOf, agentOf, Nat.add_mod] at ha ⊢
  · unfold roundRobin; split <;> simp
/-- R16 excludes something: the schedule that only ticks is not fair. -/
theorem test_unfair : ¬ (Schedule.FairTo (fun _ => .pwmTb) State.reset .syncW2R) := by
  intro h
  obtain ⟨k, _, hk⟩ := h 0 fun k _ => ⟨by simp, .syncW2R, _, rfl, rfl⟩
  exact absurd hk (by simp [agentOf])
/-- `StepsPerformTheSchedule`: two listed events, performed in order; the bytes of F2 and F3. -/
theorem test_performed :
    (advanceBy 2 { State.reset with pending := [.op .w 0x10000041#32, .syncW2R] }).rcount = 1 ∧
    State.performed { State.reset with pending := [.pwmTb, .syncW2R] } 1 = .syncW2R := by decide

end Sys2Proof.Machine
end

section
/-! PROOFS. The step: what it does with a listed event, with none, and with parameters out of range
(00_scope.md R6, R13, R14), and the statements that say only this. -/
namespace Sys2Proof.Machine

/-! ### The step and the run that goes on, in terms of the next event -/

theorem nextEvent_of_pending_cons {s : State} {e : Event} {rest : List Event}
    (h : s.pending = e :: rest) : nextEvent s = e := by
  simp only [nextEvent, h]

theorem takeEvent_of_pending_cons {s : State} {e : Event} {rest : List Event}
    (h : s.pending = e :: rest) : takeEvent s = { s with pending := rest } := by
  simp only [takeEvent, h]

theorem takeEvent_of_pending_nil {s : State} (h : s.pending = []) : takeEvent s = s.spendDraw := by
  simp only [takeEvent, h]

/-- With legal parameters the step is the next event's, on the state with that event taken. -/
theorem step_of_pending_cons {s : State} {e : Event} {rest : List Event} (hl : s.cfg.Legal)
    (h : s.pending = e :: rest) : step s = runEvent e { s with pending := rest } := by
  rw [step_of_legal hl, nextEvent_of_pending_cons h, takeEvent_of_pending_cons h]

theorem step_of_illegal {s : State} (h : ¬ s.cfg.Legal) : step s = .refused .illegalConfig :=
  if_neg h

theorem advance_of_refused {s : State} {r : Refusal} (h : step s = .refused r) :
    advance s = (takeEvent s).markRefused r := by
  simp only [advance, h]

theorem advance_of_legal {s : State} (h : s.cfg.Legal) :
    advance s = afterEvent (nextEvent s) (takeEvent s) := by
  simp only [advance, afterEvent, step_of_legal h]

theorem advance_of_illegal {s : State} (h : ¬ s.cfg.Legal) :
    advance s = (takeEvent s).markRefused .illegalConfig :=
  advance_of_refused (step_of_illegal h)

theorem advance_of_pending_cons {s : State} {e : Event} {rest : List Event} (hl : s.cfg.Legal)
    (h : s.pending = e :: rest) : advance s = { afterEvent e s with pending := rest } := by
  rw [advance_of_legal hl, nextEvent_of_pending_cons h, takeEvent_of_pending_cons h,
    afterEvent_pending]

theorem runEvent_op_ok {port : Port} {w : Word} {i : Instr} {s : State}
    (h : decode s.cfg port w = .ok i) : runEvent (.op port w) s = exec i s := by
  simp only [runEvent, runWord, h]

theorem runEvent_op_error {port : Port} {w : Word} {d : DecodeReject} {s : State}
    (h : decode s.cfg port w = .error d) :
    runEvent (.op port w) s = .refused (refuseWord port w d) := by
  simp only [runEvent, runWord, h]

/-! ### The statements on one step -/

/-- Settles O9: the step is `runEvent` of the listed event, and the word decodes. -/
theorem stepRunsTheDecodedOp : Obligations.StepRunsTheDecodedOp := by
  intro s port w rest i hl hp hd
  exact (step_of_pending_cons hl hp).trans (runEvent_op_ok hd)

/-- Settles O10: the step refuses with the decoder's reason, and `advance` marks the state. -/
theorem stepRefusesUndecodedWords : Obligations.StepRefusesUndecodedWords := by
  intro s port w rest hl hp
  have hstep : ∀ d, decode s.cfg port w = .error d → step s = .refused (refuseWord port w d) :=
    fun d hd => (step_of_pending_cons hl hp).trans (runEvent_op_error hd)
  refine ⟨hstep .reserved, hstep .wrongPort, fun d hd => ?_⟩
  rw [advance_of_pending_cons hl hp, afterEvent_op_error hd]
  cases d <;> cases port <;> rfl

/-- Settles O16: each bound that is passed contradicts one conjunct of `Params.Legal`. -/
theorem illegalParametersAreRefused : Obligations.IllegalParametersAreRefused := by
  intro s
  refine ⟨rfl, fun hbad => step_of_illegal fun hl => ?_⟩
  unfold Params.Legal Params.pwmMax at hl
  omega

/-- Settles O17: the event is the free value of the count of draws. -/
theorem emptyScheduleTakesFreeEvent : Obligations.EmptyScheduleTakesFreeEvent := by
  intro s hl hp
  refine ⟨nextEvent s, ?_⟩
  rw [step_of_legal hl, takeEvent_of_pending_nil hp]
  rfl

/-- Settles O19: ops by `exec_eq`, the other events by their one equation each; `Fault` is empty. -/
theorem everyOpAndInternalStepIsEnabled : Obligations.EveryOpAndInternalStepIsEnabled := by
  intro s
  refine ⟨fun i => ⟨_, exec_eq i s⟩, fun e hop hpart => ?_, fun f => nomatch f⟩
  cases e with
  | op port w => exact absurd rfl (hop port w)
  | partialReset d => exact absurd rfl (hpart d)
  | syncW2R | syncR2W | pwmTb | toneTmr | reset => exact ⟨_, rfl⟩

/-! ### The ghost records (10_state.md R60, R61) -/

theorem ViolSet.has_insert {v : ViolSet} {k : Viol} (j : Viol) (h : v.has k = true) :
    (v.insert j).has k = true := by
  cases j <;> cases k <;> simp_all [ViolSet.has, ViolSet.insert]

/-- An op only adds to `viol`: `FIFO.POP` and `TONE.ON` may, the others leave it alone. -/
theorem opEffect_viol_has {s : State} {k : Viol} (i : Instr) (h : s.viol.has k = true) :
    (opEffect i s).viol.has k = true := by
  cases i with
  | fifoPush b => simp only [opEffect]; split <;> simpa using h
  | fifoPop =>
    simp only [opEffect]
    split
    · simpa using ViolSet.has_insert .popWhenEmpty h
    · simpa using h
  | toneOn =>
    simp only [opEffect]
    split
    · simpa using h
    · simp only [State.answer_viol, State.arm_viol]
      split
      · exact h
      · exact ViolSet.has_insert .pitchUnset h
  | _ => simpa [opEffect] using h

theorem opEffect_refused (i : Instr) (s : State) : (opEffect i s).refused = s.refused := by
  cases i with
  | fifoPush b => simp only [opEffect]; split <;> simp
  | fifoPop => simp only [opEffect]; split <;> simp
  | toneOn => simp only [opEffect]; split <;> simp
  | _ => simp [opEffect]

/-- No event removes a violation kind (10_state.md R60). -/
theorem afterEvent_viol_has {s : State} {k : Viol} (e : Event) (h : s.viol.has k = true) :
    (afterEvent e s).viol.has k = true := by
  rcases afterEvent_cases e s with ⟨_, _, i, _, _, ht⟩ | ⟨_, _, ht⟩ | ⟨_, _, ht⟩ | ⟨_, ht⟩ | ⟨_, ht⟩ |
    ⟨_, ht⟩ | ⟨_, ht⟩ | ⟨_, ht⟩ <;> rw [ht]
  · exact opEffect_viol_has i h
  all_goals simpa using h

/-- No event clears the refused mark (10_state.md R61). -/
theorem afterEvent_refused {s : State} (e : Event) (h : s.refused = true) :
    (afterEvent e s).refused = true := by
  rcases afterEvent_cases e s with ⟨_, _, i, _, _, ht⟩ | ⟨_, _, ht⟩ | ⟨_, _, ht⟩ | ⟨_, ht⟩ | ⟨_, ht⟩ |
    ⟨_, ht⟩ | ⟨_, ht⟩ | ⟨_, ht⟩ <;> rw [ht]
  · rw [opEffect_refused, h]
  all_goals simp [h]

/-- Settles O24: with legal parameters `advance` is an event, and else only the mark is set. -/
theorem ghostRecordsPersist : Obligations.GhostRecordsPersist := by
  intro s
  have hrefused : ∀ r, step s = .refused r → (advance s).refused = true := fun r hr => by
    simp [advance_of_refused hr]
  by_cases hl : s.cfg.Legal
  · have ha := advance_of_legal hl
    refine ⟨fun k hk => ?_, fun h => ?_, hrefused, by simp [ha]⟩
    · rw [ha]; exact afterEvent_viol_has _ (by simpa using hk)
    · rw [ha]; exact afterEvent_refused _ (by simpa using h)
  · simp [advance_of_illegal hl]

end Sys2Proof.Machine
end

section
/-! PROOFS. `bin` bit by bit (00_scope.md R18). -/
namespace Sys2Proof.Machine

/-- Bit `i` of a `w`-bit `bin` is its upper neighbour XOR bit `i` of the Gray code, at every `i`. -/
theorem bin_testBit {w g : Nat} (h : g < 2 ^ w) (i : Nat) :
    (bin w g).testBit i = ((bin w g).testBit (i + 1) ^^ g.testBit i) := by
  have hg : g.testBit i = (gray (bin w g)).testBit i := by rw [gray_bin w g h]
  rw [hg, gray, Nat.testBit_xor, Nat.testBit_shiftRight, Nat.add_comm 1 i]
  cases (bin w g).testBit i <;> cases (bin w g).testBit (i + 1) <;> rfl

/-- Settles O27: the top bit has no upper neighbour, since `bin` stays below `2^(w+1)`. -/
theorem binaryFromGrayBits : Obligations.BinaryFromGrayBits := by
  intro w g i
  refine ⟨fun h => ⟨?_, fun _ => bin_testBit h i⟩,
    fun h => ⟨bin_gray w g h, gray_bin w g h, gray_lt h, bin_lt w g h⟩⟩
  have htop : (bin (w + 1) g).testBit (w + 1) = false := Nat.testBit_lt_two_pow (bin_lt _ _ h)
  rw [bin_testBit h w, htop, Bool.false_xor]

end Sys2Proof.Machine
end

section
/-! PROOFS. Listed schedules and weak fairness (00_scope.md R13, R16). -/
namespace Sys2Proof.Machine

/-- A listed schedule is performed event by event. -/
theorem advanceBy_listed (es rest : List Event) (s : State) (hl : s.cfg.Legal) :
    advanceBy es.length { s with pending := es ++ rest } =
      { afterEvents es s with pending := rest } := by
  induction es generalizing s with
  | nil => rfl
  | cons e es ih =>
    have hstep : advance { s with pending := e :: es ++ rest } =
        { afterEvent e s with pending := es ++ rest } := by
      have ha := advance_of_pending_cons (s := { s with pending := e :: es ++ rest }) hl rfl
      rwa [afterEvent_pending] at ha
    rw [List.length_cons, advanceBy, hstep, ih _ (by simpa using hl), afterEvents_cons]

/-- Settles O54: `performed` at `k` is the head of what is left after the first `k` events. -/
theorem stepsPerformTheSchedule : Obligations.StepsPerformTheSchedule := by
  intro s es rest hl
  refine ⟨advance_of_legal hl, advanceBy_listed es rest s hl, fun k hk => ?_⟩
  have hrun := advanceBy_listed (es.take k) (es.drop k ++ rest) s hl
  rw [← List.append_assoc, List.take_append_drop, List.length_take_of_le hk.le] at hrun
  rw [State.performed, hrun]
  exact nextEvent_of_pending_cons (by rw [List.drop_eq_getElem_cons hk]; rfl)

/-- An event by which an agent steps in every state: a query at a port, or the agent's internal step. -/
def stepEventOf : Agent → Event
  | .producer => .op .w 0x13000000#32
  | .controller => .op .r 0x12000000#32
  | .syncW2R => .syncW2R
  | .syncR2W => .syncR2W
  | .pwmTb => .pwmTb
  | .toneTmr => .toneTmr
  | .env => .reset

@[simp] theorem agentOf_stepEventOf (a : Agent) : agentOf (stepEventOf a) = a := by cases a <;> rfl

theorem decode_fifoFull_word (p : Params) : decode p .w 0x13000000#32 = .ok .fifoFull := rfl

theorem decode_fifoEmpty_word (p : Params) : decode p .r 0x12000000#32 = .ok .fifoEmpty := rfl

theorem runEvent_stepEventOf (a : Agent) (s : State) : ∃ t, runEvent (stepEventOf a) s = .next t := by
  cases a with
  | producer => exact ⟨_, (runEvent_op_ok (decode_fifoFull_word s.cfg)).trans (exec_eq _ s)⟩
  | controller => exact ⟨_, (runEvent_op_ok (decode_fifoEmpty_word s.cfg)).trans (exec_eq _ s)⟩
  | syncW2R | syncR2W | pwmTb | toneTmr | env => exact ⟨_, rfl⟩

/-- Every agent but `ENV` is enabled in every state (00_scope.md R13). -/
theorem State.enables_of_ne_env (s : State) {a : Agent} (h : a ≠ .env) : s.Enables a := by
  obtain ⟨t, ht⟩ := runEvent_stepEventOf a s
  exact ⟨h, stepEventOf a, t, agentOf_stepEventOf a, ht⟩

/-- Fairness to an agent other than `ENV`: it is scheduled again and again. -/
theorem Schedule.fairTo_iff {sched : Schedule} {s : State} {a : Agent} (h : a ≠ .env) :
    sched.FairTo s a ↔ ∀ n, ∃ k, n ≤ k ∧ agentOf (sched k) = a :=
  ⟨fun hf n => hf n fun _ _ => State.enables_of_ne_env _ h, fun hf n _ => hf n⟩

/-- Settles O55: the premise of `FairTo` holds for every agent but `ENV`, and never for `ENV`. -/
theorem weakFairnessIsInfinitelyOften : Obligations.WeakFairnessIsInfinitelyOften := by
  intro sched s
  refine ⟨fun a u ha => u.enables_of_ne_env ha,
    fun hf a ha => (Schedule.fairTo_iff ha).mp (hf a), fun hf a => ?_⟩
  by_cases ha : a = .env
  · exact fun n henabled => absurd ha (henabled n le_rfl).1
  · exact (Schedule.fairTo_iff ha).mpr (hf a ha)

end Sys2Proof.Machine
end
section
/-! PROOFS. What an event does to the FIFO's pointers and views (10_state.md R41 to R44): the cases of an
event as the FIFO sees them, the part of the invariant about pointers, and the two balances. -/
namespace Sys2Proof.Machine

/-! ### What an event can do to the FIFO -/

/-- The two states agree on the parameters, the pointers in all their copies, and the storage. -/
structure State.SameFifo (s t : State) : Prop where
  cfg : s.cfg = t.cfg
  wbin : s.wbin = t.wbin
  wgray : s.wgray = t.wgray
  wqRgray : s.wqRgray = t.wqRgray
  rbin : s.rbin = t.rbin
  rgray : s.rgray = t.rgray
  rqWgray : s.rqWgray = t.rqWgray
  mem : s.mem = t.mem

theorem State.SameFifo.count_eq {s t : State} (h : s.SameFifo t) : s.count = t.count := by
  rw [State.count, State.count, h.cfg, h.wbin, h.rbin]

theorem State.SameFifo.wcount_eq {s t : State} (h : s.SameFifo t) : s.wcount = t.wcount := by
  rw [State.wcount, State.wcount, h.cfg, h.wbin, h.wqRgray]

theorem State.SameFifo.rcount_eq {s t : State} (h : s.SameFifo t) : s.rcount = t.rcount := by
  rw [State.rcount, State.rcount, h.cfg, h.rbin, h.rqWgray]

theorem State.sameFifo_answer (s : State) (p : Port) (r : Option Word) : (s.answer p r).SameFifo s := by
  constructor <;> simp

theorem State.sameFifo_markRefused (s : State) (r : Refusal) : (s.markRefused r).SameFifo s := by
  constructor <;> simp

/-- Every op but `FIFO.PUSH` and `FIFO.POP` leaves the FIFO alone. -/
theorem opEffect_sameFifo {i : Instr} (s : State) (hpush : ∀ b, i ≠ .fifoPush b) (hpop : i ≠ .fifoPop) :
    (opEffect i s).SameFifo s := by
  cases i with
  | fifoPush b => exact absurd rfl (hpush b)
  | fifoPop => exact absurd rfl hpop
  | toneOn => simp only [opEffect]; split <;> constructor <;> simp
  | _ => constructor <;> simp [opEffect]

/-- One event at the FIFO: it accepts a byte, returns one, publishes a pointer, resets, or leaves the
FIFO alone. `t` is the state after it, and the two lists are the bytes accepted and returned. -/
inductive FifoStep (s t : State) : Event → List Byte → List Byte → Prop where
  | push {e : Event} {b : Byte} (room : s.wcount ≠ s.cfg.depth) (after : t.SameFifo (s.enqueue b)) :
      FifoStep s t e [b] []
  | pop {e : Event} (inView : s.rcount ≠ 0) (after : t.SameFifo s.dequeue) : FifoStep s t e [] [s.headByte]
  | syncW2R (after : t.SameFifo s.syncW2R) : FifoStep s t .syncW2R [] []
  | syncR2W (after : t.SameFifo s.syncR2W) : FifoStep s t .syncR2W [] []
  | reset (after : t.SameFifo s.resetEvent) : FifoStep s t .reset [] []
  | quiet {e : Event} (after : t.SameFifo s) : FifoStep s t e [] []

theorem acceptedBy_op_ok {port : Port} {w : Word} {i : Instr} {s : State} (h : decode s.cfg port w = .ok i) :
    acceptedBy (.op port w) s = match i with
      | .fifoPush b => if s.full then [] else [b]
      | _ => [] := by
  simp only [acceptedBy, h]
  cases i <;> rfl

/-- `valid` is bit 8 of the result of `FIFO.POP` (30_encoding.md R95). -/
theorem popResult_valid (v : Bool) (b : Byte) : (popResult v b).getLsbD 8 = v := by
  rw [popResult_getLsbD]; rfl

/-- The bytes returned, with the result word of the pop taken apart. -/
theorem returnedBy_op_ok {port : Port} {w : Word} {i : Instr} {s : State} (h : decode s.cfg port w = .ok i) :
    returnedBy (.op port w) s = match i with
      | .fifoPop => if s.rcount = 0 then [] else [s.headByte]
      | _ => [] := by
  simp only [returnedBy, h, afterEvent_op_ok h]
  cases i with
  | fifoPop =>
    by_cases hr : s.rcount = 0
    · simp only [opEffect, hr, if_true, State.answer_r_rResult, popResult_valid, Bool.false_eq_true, if_false]
    · simp only [opEffect, hr, if_false, State.answer_r_rResult, popResult_valid, if_true, popResult_byte]
  | _ => rfl

theorem fifoStep_of_op_ok {port : Port} {w : Word} {i : Instr} {s : State}
    (h : decode s.cfg port w = .ok i) :
    FifoStep s (afterEvent (.op port w) s) (.op port w) (acceptedBy (.op port w) s)
      (returnedBy (.op port w) s) := by
  rw [acceptedBy_op_ok h, returnedBy_op_ok h, afterEvent_op_ok h]
  cases i with
  | fifoPush b =>
    by_cases hw : s.wcount = s.cfg.depth
    · simp only [State.full, opEffect, hw, decide_true, if_true]
      exact .quiet (by constructor <;> simp)
    · simp only [State.full, opEffect, hw, decide_false, if_false]
      exact .push hw (State.sameFifo_answer _ _ _)
  | fifoPop =>
    by_cases hr : s.rcount = 0
    · simp only [opEffect, hr, if_true]
      exact .quiet (by constructor <;> simp)
    · simp only [opEffect, hr, if_false]
      exact .pop hr (State.sameFifo_answer _ _ _)
  | _ => exact .quiet (opEffect_sameFifo s (by simp) (by simp))

/-- Every event is one of the cases of `FifoStep`. -/
theorem fifoStep_afterEvent (e : Event) (s : State) :
    FifoStep s (afterEvent e s) e (acceptedBy e s) (returnedBy e s) := by
  cases e with
  | op port w =>
    cases h : decode s.cfg port w with
    | ok i => exact fifoStep_of_op_ok h
    | error d =>
      simp only [acceptedBy, returnedBy, h, afterEvent_op_error h]
      exact .quiet (State.sameFifo_markRefused _ _)
  | syncW2R => exact .syncW2R (by constructor <;> rfl)
  | syncR2W => exact .syncR2W (by constructor <;> rfl)
  | reset => exact .reset (by constructor <;> rfl)
  | pwmTb => exact .quiet (by constructor <;> rfl)
  | toneTmr => exact .quiet (by constructor <;> simp)
  | partialReset d => exact .quiet (s.sameFifo_markRefused (.partialReset d))

/-! ### The part of the invariant about pointers -/

/-- The clauses of `State.Inv` on the pointers (40_fifo.md R122, 10_state.md R44), which events keep
without need of the others. -/
structure State.FifoOk (s : State) : Prop where
  wbin_lt : s.wbin < 2 ^ s.cfg.ptrW
  rbin_lt : s.rbin < 2 ^ s.cfg.ptrW
  wqRgray_lt : s.wqRgray < 2 ^ s.cfg.ptrW
  rqWgray_lt : s.rqWgray < 2 ^ s.cfg.ptrW
  pointersOk : s.PointersOk

theorem State.Inv.fifoOk {s : State} (h : s.Inv) : s.FifoOk := by
  obtain ⟨-, ⟨hw, -, hwq, hr, -, hrq, -⟩, hp, -⟩ := h
  exact ⟨hw, hr, hwq, hrq, hp⟩

theorem State.FifoOk.congr {s t : State} (h : s.FifoOk) (ht : t.SameFifo s) : t.FifoOk := by
  obtain ⟨hw, hr, hwq, hrq, hp⟩ := h
  refine ⟨?_, ?_, ?_, ?_, ?_⟩
  · rwa [ht.cfg, ht.wbin]
  · rwa [ht.cfg, ht.rbin]
  · rwa [ht.cfg, ht.wqRgray]
  · rwa [ht.cfg, ht.rqWgray]
  · rwa [State.PointersOk, ht.count_eq, ht.wcount_eq, ht.rcount_eq, ht.cfg, ht.wgray, ht.wbin, ht.rgray,
      ht.rbin]

/-! The views and the true count after each FIFO step. -/

theorem State.enqueue_rcount (s : State) (b : Byte) : (s.enqueue b).rcount = s.rcount := rfl

theorem State.FifoOk.enqueue_count {s : State} (h : s.FifoOk) (b : Byte) (hroom : s.wcount ≠ s.cfg.depth) :
    (s.enqueue b).count = s.count + 1 := by
  obtain ⟨-, -, -, hcw, hwd⟩ := h.pointersOk
  have hpow := Machine.Params.ptrPow s.cfg
  have hwrap : s.count + 1 < 2 ^ s.cfg.ptrW := by omega
  exact subW_addW_left h.wbin_lt h.rbin_lt hwrap

theorem State.FifoOk.enqueue_wcount {s : State} (h : s.FifoOk) (b : Byte) (hroom : s.wcount ≠ s.cfg.depth) :
    (s.enqueue b).wcount = s.wcount + 1 := by
  obtain ⟨-, -, -, -, hwd⟩ := h.pointersOk
  have hpow := Machine.Params.ptrPow s.cfg
  have hwrap : s.wcount + 1 < 2 ^ s.cfg.ptrW := by omega
  exact subW_addW_left h.wbin_lt (bin_lt _ _ h.wqRgray_lt) hwrap

theorem State.dequeue_wcount (s : State) : s.dequeue.wcount = s.wcount := rfl

theorem State.FifoOk.dequeue_rcount {s : State} (h : s.FifoOk) (hview : s.rcount ≠ 0) :
    s.dequeue.rcount = s.rcount - 1 :=
  subW_addW_right (bin_lt _ _ h.rqWgray_lt) h.rbin_lt (Nat.pos_of_ne_zero hview)

theorem State.FifoOk.dequeue_count {s : State} (h : s.FifoOk) (hview : s.rcount ≠ 0) :
    s.dequeue.count = s.count - 1 := by
  obtain ⟨-, -, hrc, -, -⟩ := h.pointersOk
  have hheld : 0 < s.count := by omega
  exact subW_addW_right h.wbin_lt h.rbin_lt hheld

theorem State.syncW2R_count (s : State) : s.syncW2R.count = s.count := rfl
theorem State.syncW2R_wcount (s : State) : s.syncW2R.wcount = s.wcount := rfl
theorem State.syncR2W_count (s : State) : s.syncR2W.count = s.count := rfl
theorem State.syncR2W_rcount (s : State) : s.syncR2W.rcount = s.rcount := rfl

/-- `SYNC_W2R` makes the consumer's view the true count (20_memory.md R78). -/
theorem State.FifoOk.syncW2R_rcount {s : State} (h : s.FifoOk) : s.syncW2R.rcount = s.count := by
  obtain ⟨hgray, -⟩ := h.pointersOk
  simp [State.rcount, State.count, hgray, bin_gray _ _ h.wbin_lt]

/-- `SYNC_R2W` makes the producer's view the true count (20_memory.md R79). -/
theorem State.FifoOk.syncR2W_wcount {s : State} (h : s.FifoOk) : s.syncR2W.wcount = s.count := by
  obtain ⟨-, hgray, -⟩ := h.pointersOk
  simp [State.wcount, State.count, hgray, bin_gray _ _ h.rbin_lt]

theorem State.FifoOk.enqueue {s : State} (h : s.FifoOk) (b : Byte) (hroom : s.wcount ≠ s.cfg.depth) :
    (s.enqueue b).FifoOk := by
  obtain ⟨-, hrg, hrc, hcw, hwd⟩ := h.pointersOk
  refine ⟨addW_lt _ _ _, h.rbin_lt, h.wqRgray_lt, h.rqWgray_lt, rfl, hrg, ?_⟩
  rw [s.enqueue_rcount, h.enqueue_count b hroom, h.enqueue_wcount b hroom, State.enqueue_cfg]
  omega

theorem State.FifoOk.dequeue {s : State} (h : s.FifoOk) (hview : s.rcount ≠ 0) : s.dequeue.FifoOk := by
  obtain ⟨hwg, -, hrc, hcw, hwd⟩ := h.pointersOk
  refine ⟨h.wbin_lt, addW_lt _ _ _, h.wqRgray_lt, h.rqWgray_lt, hwg, rfl, ?_⟩
  rw [s.dequeue_wcount, h.dequeue_count hview, h.dequeue_rcount hview, State.dequeue_cfg]
  omega

theorem State.FifoOk.syncW2R {s : State} (h : s.FifoOk) : s.syncW2R.FifoOk := by
  obtain ⟨hwg, hrg, -, hcw, hwd⟩ := h.pointersOk
  have hlt : s.wgray < 2 ^ s.cfg.ptrW := by rw [hwg]; exact gray_lt h.wbin_lt
  exact ⟨h.wbin_lt, h.rbin_lt, h.wqRgray_lt, hlt, hwg, hrg, h.syncW2R_rcount.le,
    hcw, hwd⟩

theorem State.FifoOk.syncR2W {s : State} (h : s.FifoOk) : s.syncR2W.FifoOk := by
  obtain ⟨hwg, hrg, hrc, hcw, hwd⟩ := h.pointersOk
  have hlt : s.rgray < 2 ^ s.cfg.ptrW := by rw [hrg]; exact gray_lt h.rbin_lt
  exact ⟨h.wbin_lt, h.rbin_lt, hlt, h.rqWgray_lt, hwg, hrg, hrc,
    h.syncR2W_wcount.ge, h.syncR2W_wcount.le.trans (hcw.trans hwd)⟩

theorem State.resetEvent_fifoOk (s : State) : s.resetEvent.FifoOk := by
  have hpos : 0 < 2 ^ s.cfg.ptrW := by positivity
  have hbin : bin s.cfg.ptrW 0 = 0 := bin_gray _ 0 hpos
  have hzero : subW s.cfg.ptrW 0 0 = 0 := subW_self hpos
  refine ⟨hpos, hpos, hpos, hpos, by simp [gray], by simp [gray], ?_⟩
  simp [State.rcount, State.count, State.wcount, hbin, hzero]

/-- Every FIFO step keeps the pointers in order (40_fifo.md R122). -/
theorem FifoStep.fifoOk {s t : State} {e : Event} {acc ret : List Byte} (hstep : FifoStep s t e acc ret)
    (h : s.FifoOk) : t.FifoOk := by
  cases hstep with
  | push room after => exact (h.enqueue _ room).congr after
  | pop inView after => exact (h.dequeue inView).congr after
  | syncW2R after => exact h.syncW2R.congr after
  | syncR2W after => exact h.syncR2W.congr after
  | reset after => exact s.resetEvent_fifoOk.congr after
  | quiet after => exact h.congr after

theorem State.FifoOk.afterEvent {s : State} (h : s.FifoOk) (e : Event) : (afterEvent e s).FifoOk :=
  (fifoStep_afterEvent e s).fifoOk h

/-! ### What one event does to the counts -/

section
variable {s t : State} {e : Event} {acc ret : List Byte}

/-- The true count grows by what is accepted and falls by what is returned. -/
theorem FifoStep.count_add (hstep : FifoStep s t e acc ret) (h : s.FifoOk) (he : e ≠ .reset) :
    t.count + ret.length = s.count + acc.length := by
  cases hstep with
  | push room after => simp [after.count_eq, h.enqueue_count _ room]
  | pop inView after =>
    obtain ⟨-, -, hrc, -, -⟩ := h.pointersOk
    rw [after.count_eq, h.dequeue_count inView, List.length_singleton, List.length_nil]
    omega
  | syncW2R after => simp [after.count_eq, s.syncW2R_count]
  | syncR2W after => simp [after.count_eq, s.syncR2W_count]
  | reset after => exact absurd rfl he
  | quiet after => simp [after.count_eq]

/-- Without `SYNC_W2R` the consumer's view only falls by what is returned (20_memory.md R78). -/
theorem FifoStep.rcount_add (hstep : FifoStep s t e acc ret) (h : s.FifoOk) (he : e ≠ .reset)
    (hsync : e ≠ .syncW2R) : t.rcount + ret.length = s.rcount := by
  cases hstep with
  | push room after => simp [after.rcount_eq, s.enqueue_rcount]
  | pop inView after =>
    rw [after.rcount_eq, h.dequeue_rcount inView, List.length_singleton]
    omega
  | syncW2R after => exact absurd rfl hsync
  | syncR2W after => simp [after.rcount_eq, s.syncR2W_rcount]
  | reset after => exact absurd rfl he
  | quiet after => simp [after.rcount_eq]

/-- Without `SYNC_R2W` the producer's view only grows by what is accepted (20_memory.md R79). -/
theorem FifoStep.wcount_eq (hstep : FifoStep s t e acc ret) (h : s.FifoOk) (he : e ≠ .reset)
    (hsync : e ≠ .syncR2W) : t.wcount = s.wcount + acc.length := by
  cases hstep with
  | push room after => simp [after.wcount_eq, h.enqueue_wcount _ room]
  | pop inView after => simp [after.wcount_eq, s.dequeue_wcount]
  | syncW2R after => simp [after.wcount_eq, s.syncW2R_wcount]
  | syncR2W after => exact absurd rfl hsync
  | reset after => exact absurd rfl he
  | quiet after => simp [after.wcount_eq]

end

/-- No event but reset takes from the consumer's view more than it returns. -/
theorem State.FifoOk.rcount_le_afterEvent {s : State} {e : Event} (h : s.FifoOk) (he : e ≠ .reset) :
    s.rcount ≤ (Machine.afterEvent e s).rcount + (returnedBy e s).length := by
  by_cases hsync : e = .syncW2R
  · subst hsync
    obtain ⟨-, -, hrc, -, -⟩ := h.pointersOk
    rw [afterEvent_syncW2R, h.syncW2R_rcount]
    omega
  · exact ((fifoStep_afterEvent e s).rcount_add h he hsync).ge

/-- No event but reset adds to the producer's view more than it accepts. -/
theorem State.FifoOk.afterEvent_wcount_le {s : State} {e : Event} (h : s.FifoOk) (he : e ≠ .reset) :
    (Machine.afterEvent e s).wcount ≤ s.wcount + (acceptedBy e s).length := by
  by_cases hsync : e = .syncR2W
  · subst hsync
    obtain ⟨-, -, -, hcw, -⟩ := h.pointersOk
    rw [afterEvent_syncR2W, h.syncR2W_wcount]
    omega
  · exact ((fifoStep_afterEvent e s).wcount_eq h he hsync).le

end Sys2Proof.Machine
end

section
/-! PROOFS. 20_memory.md R84 along a schedule without reset: the balances that hold at every time, what
no event undoes, and what the fair synchroniser brings about. -/
namespace Sys2Proof.Machine

theorem agentOf_eq_syncW2R {e : Event} : agentOf e = .syncW2R ↔ e = .syncW2R := by
  cases e with
  | op port w => cases port <;> simp [agentOf]
  | _ => simp [agentOf]

theorem agentOf_eq_syncR2W {e : Event} : agentOf e = .syncR2W ↔ e = .syncR2W := by
  cases e with
  | op port w => cases port <;> simp [agentOf]
  | _ => simp [agentOf]

theorem Schedule.fifoOk_stateAt (sched : Schedule) {s : State} (h : s.FifoOk) (n : Nat) :
    (sched.stateAt s n).FifoOk := by
  induction n with
  | zero => exact h
  | succ n ih => rw [Schedule.stateAt_succ]; exact ih.afterEvent _

theorem Schedule.accepted_length_mono (sched : Schedule) (s : State) :
    Monotone fun n => (accepted (sched.upTo n) s).length :=
  monotone_nat_of_le_succ fun n => by simp [Schedule.accepted_succ]

theorem Schedule.returned_length_mono (sched : Schedule) (s : State) :
    Monotone fun n => (returned (sched.upTo n) s).length :=
  monotone_nat_of_le_succ fun n => by simp [Schedule.returned_succ]

section
variable {sched : Schedule} {s : State} (h : s.FifoOk) (hreset : ∀ k, sched k ≠ .reset)
include h hreset

/-- At every time, the bytes held at first and accepted are those returned and still held. -/
theorem Schedule.count_balance (n : Nat) :
    (sched.stateAt s n).count + (returned (sched.upTo n) s).length =
      s.count + (accepted (sched.upTo n) s).length := by
  induction n with
  | zero => rfl
  | succ n ih =>
    have hstep := (fifoStep_afterEvent (sched n) (sched.stateAt s n)).count_add
      (sched.fifoOk_stateAt h n) (hreset n)
    rw [Schedule.stateAt_succ, Schedule.accepted_succ, Schedule.returned_succ, List.length_append,
      List.length_append]
    omega

/-- What has been returned or is in the consumer's view stays so. -/
theorem Schedule.returned_add_rcount_mono :
    Monotone fun n => (returned (sched.upTo n) s).length + (sched.stateAt s n).rcount :=
  monotone_nat_of_le_succ fun n => by
    have hstep := (sched.fifoOk_stateAt h n).rcount_le_afterEvent (hreset n)
    rw [Schedule.stateAt_succ, Schedule.returned_succ, List.length_append]
    omega

/-- The producer's view grows by no more than is accepted. -/
theorem Schedule.wcount_add_accepted_le {m k : Nat} (hmk : m ≤ k) :
    (sched.stateAt s k).wcount + (accepted (sched.upTo m) s).length ≤
      (sched.stateAt s m).wcount + (accepted (sched.upTo k) s).length := by
  induction k, hmk using Nat.le_induction with
  | base => rfl
  | succ k _ ih =>
    have hstep := (sched.fifoOk_stateAt h k).afterEvent_wcount_le (hreset k)
    rw [Schedule.stateAt_succ, Schedule.accepted_succ, List.length_append]
    omega

end

/-- Settles O56: right after a `SYNC_W2R` at or after time `n` the view is the true count, so bytes
returned plus the view cover all accepted, and no later event undoes that. -/
theorem acceptedBytesBecomePoppable : Obligations.AcceptedBytesBecomePoppable := by
  intro sched s hinv hreset hfair n
  have h := hinv.fifoOk
  obtain ⟨j, hnj, hagent⟩ := (Schedule.fairTo_iff (by decide)).mp hfair n
  refine ⟨j + 1, by omega, fun k hk => ?_⟩
  have hview : (sched.stateAt s (j + 1)).rcount = (sched.stateAt s (j + 1)).count := by
    rw [Schedule.stateAt_succ, agentOf_eq_syncW2R.mp hagent, afterEvent_syncW2R, State.syncW2R_count]
    exact (sched.fifoOk_stateAt h j).syncW2R_rcount
  calc s.count + (accepted (sched.upTo n) s).length
      ≤ s.count + (accepted (sched.upTo (j + 1)) s).length :=
        Nat.add_le_add_left (sched.accepted_length_mono s (by omega)) _
    _ = (returned (sched.upTo (j + 1)) s).length + (sched.stateAt s (j + 1)).rcount := by
        rw [← Schedule.count_balance h hreset, hview, Nat.add_comm]
    _ ≤ (returned (sched.upTo k) s).length + (sched.stateAt s k).rcount :=
        Schedule.returned_add_rcount_mono h hreset hk

/-- Settles O57: right after a `SYNC_R2W` at or after time `n` the view is the true count, so it has
room for every byte returned, and later it grows only by what is accepted. -/
theorem freedRoomBecomesVisible : Obligations.FreedRoomBecomesVisible := by
  intro sched s hinv hreset hfair n
  have h := hinv.fifoOk
  obtain ⟨j, hnj, hagent⟩ := (Schedule.fairTo_iff (by decide)).mp hfair n
  refine ⟨j + 1, by omega, fun k hk => ?_⟩
  have hview : (sched.stateAt s (j + 1)).wcount = (sched.stateAt s (j + 1)).count := by
    rw [Schedule.stateAt_succ, agentOf_eq_syncR2W.mp hagent, afterEvent_syncR2W, State.syncR2W_count]
    exact (sched.fifoOk_stateAt h j).syncR2W_wcount
  have hreturned : (returned (sched.upTo n) s).length ≤ (returned (sched.upTo (j + 1)) s).length :=
    sched.returned_length_mono s (by omega)
  have hbalance := Schedule.count_balance h hreset (j + 1)
  have hlater := Schedule.wcount_add_accepted_le h hreset hk
  omega

end Sys2Proof.Machine
end

section
/-! PROOFS. The flags, the relay, the levels and the time base: which op writes each of them, and that
only ops and reset do (10_state.md R35, R39, R45 to R47, R51, R56). -/
namespace Sys2Proof.Machine

/-! ### The fields that only ops and reset write -/

section
variable {e : Event} {s : State} {i : Instr}

/-- A field that no tick, synchroniser step or refusal writes is moved by an op or by reset. -/
theorem afterEvent_field_of_ne {α : Type} (f : State → α) (h : f (afterEvent e s) ≠ f s)
    (hmark : ∀ r, f (s.markRefused r) = f s := by simp) (hw2r : f s.syncW2R = f s := by simp)
    (hr2w : f s.syncR2W = f s := by simp) (hpwm : f s.pwmTb = f s := by simp)
    (htone : f s.toneTmr = f s := by simp) :
    (∃ i, spells e s i ∧ afterEvent e s = opEffect i s) ∨
      (e = .reset ∧ afterEvent e s = s.resetEvent) := by
  rcases afterEvent_cases e s with ⟨port, w, i, he, hd, ht⟩ | ⟨r, -, ht⟩ | ⟨d, -, ht⟩ | ⟨-, ht⟩ |
    ⟨-, ht⟩ | ⟨-, ht⟩ | ⟨-, ht⟩ | ⟨he, ht⟩
  · exact .inl ⟨i, ⟨port, w, he, hd⟩, ht⟩
  · exact absurd (ht ▸ hmark r) h
  · exact absurd (ht ▸ hmark (.partialReset d)) h
  · exact absurd (ht ▸ hw2r) h
  · exact absurd (ht ▸ hr2w) h
  · exact absurd (ht ▸ hpwm) h
  · exact absurd (ht ▸ htone) h
  · exact .inr ⟨he, ht⟩

/-- `FIFO.PUSH` counts a dropped byte and `FIFO.OVFCLR` clears the count; no other op writes `ovf`. -/
theorem opEffect_ovf_of_ne (h : (opEffect i s).ovf ≠ s.ovf) :
    ((∃ b, i = .fifoPush b) ∧ s.wcount = s.cfg.depth ∧ s.ovf < s.cfg.ovfMax ∧
        (opEffect i s).ovf = s.ovf + 1) ∨
      (i = .fifoOvfclr ∧ (opEffect i s).ovf = 0) := by
  cases i with
  | fifoPush b =>
    by_cases hfull : s.wcount = s.cfg.depth
    · by_cases hmax : s.ovf < s.cfg.ovfMax
      · exact .inl ⟨⟨b, rfl⟩, hfull, hmax, by simp [opEffect, hfull, hmax]⟩
      · exact absurd (by simp [opEffect, hfull, hmax]) h
    · exact absurd (by simp [opEffect, hfull]) h
  | fifoOvfclr => exact .inr ⟨rfl, by simp [opEffect]⟩
  | fifoPop | toneOn => exact absurd (by simp only [opEffect]; split <;> simp) h
  | _ => exact absurd (by simp [opEffect]) h

/-- A pop of an empty view sets `unf` and `FIFO.UNFCLR` clears it; no other op writes it. -/
theorem opEffect_unf_of_ne (h : (opEffect i s).unf ≠ s.unf) :
    (i = .fifoPop ∧ s.rcount = 0 ∧ (opEffect i s).unf = true) ∨
      (i = .fifoUnfclr ∧ (opEffect i s).unf = false) := by
  cases i with
  | fifoPop =>
    by_cases hempty : s.rcount = 0
    · exact .inl ⟨rfl, hempty, by simp [opEffect, hempty]⟩
    · exact absurd (by simp [opEffect, hempty]) h
  | fifoUnfclr => exact .inr ⟨rfl, by simp [opEffect]⟩
  | fifoPush | toneOn => exact absurd (by simp only [opEffect]; split <;> simp) h
  | _ => exact absurd (by simp [opEffect]) h

/-- `TONE.ON` arms, `TONE.OFF` and `TONE.INIT` disarm; no other op writes `armed`. -/
theorem opEffect_armed_of_ne (h : (opEffect i s).armed ≠ s.armed) :
    (i = .toneOn ∧ (opEffect i s).armed = true) ∨
      ((i = .toneOff ∨ i = .toneInit) ∧ (opEffect i s).armed = false) := by
  cases i with
  | toneOn =>
    by_cases harmed : s.armed = true
    · exact absurd (by simp [opEffect, harmed]) h
    · exact .inl ⟨rfl, by simp [opEffect, harmed]⟩
  | toneOff => exact .inr ⟨.inl rfl, by simp [opEffect]⟩
  | toneInit => exact .inr ⟨.inr rfl, by simp [opEffect]⟩
  | fifoPush | fifoPop => exact absurd (by simp only [opEffect]; split <;> simp) h
  | _ => exact absurd (by simp [opEffect]) h

/-- `RELAY.SET` is the only op that writes the relay register. -/
theorem opEffect_relayOpen_of_ne (h : (opEffect i s).relayOpen ≠ s.relayOpen) :
    i = .relaySet (opEffect i s).relayOpen := by
  cases i with
  | relaySet u => simp [opEffect]
  | fifoPush | fifoPop | toneOn => exact absurd (by simp only [opEffect]; split <;> simp) h
  | _ => exact absurd (by simp [opEffect]) h

/-- `PWM.SET` writes one level and `PWM.POWER` all three; no other op writes a level. -/
theorem opEffect_level_of_ne (h : (opEffect i s).level ≠ s.level) :
    (∃ ch l, (opEffect i s).level = s.level.set ch (levelOperand s.cfg l)) ∨
      (opEffect i s).level = ⟨s.cfg.pwmMax, s.cfg.pwmMax, s.cfg.toneOffLevel⟩ := by
  cases i with
  | pwmSet ch l => exact .inl ⟨ch, l, by simp [opEffect]⟩
  | pwmPower => exact .inr (by simp [opEffect])
  | fifoPush | fifoPop | toneOn => exact absurd (by simp only [opEffect]; split <;> simp) h
  | _ => exact absurd (by simp [opEffect]) h

theorem opEffect_pwmCnt (i : Instr) (s : State) : (opEffect i s).pwmCnt = s.pwmCnt := by
  cases i with
  | fifoPush | fifoPop | toneOn => simp only [opEffect]; split <;> simp
  | _ => simp [opEffect]

end

/-- Settles O42: an op that moves the relay is `RELAY.SET` with the new value. -/
theorem onlyRelaySetAndResetMoveRelay : Obligations.OnlyRelaySetAndResetMoveRelay := by
  intro e s h
  rcases afterEvent_field_of_ne State.relayOpen h with ⟨i, hi, ht⟩ | ⟨he, ht⟩
  · rw [ht] at h ⊢
    exact .inr ⟨_, opEffect_relayOpen_of_ne h ▸ hi, rfl⟩
  · exact .inl ⟨he, by rw [ht, State.resetEvent_relayOpen]⟩

/-- Settles O51: each flag is moved by an op or reset, and the op that moves it is one of those listed. -/
theorem flagsChangeOnlyAsListed : Obligations.FlagsChangeOnlyAsListed := by
  rintro e s t rfl
  refine ⟨fun h => ?_, fun h => ?_, fun h => ?_⟩
  · rcases afterEvent_field_of_ne State.unf h with ⟨i, hi, ht⟩ | ⟨he, ht⟩ <;> rw [ht] at h ⊢
    · rcases opEffect_unf_of_ne h with ⟨rfl, hempty, hset⟩ | ⟨rfl, hclear⟩
      · exact .inl ⟨hset, hi, hempty⟩
      · exact .inr ⟨hclear, .inl hi⟩
    · exact .inr ⟨rfl, .inr he⟩
  · rcases afterEvent_field_of_ne State.ovf h with ⟨i, hi, ht⟩ | ⟨he, ht⟩ <;> rw [ht] at h ⊢
    · rcases opEffect_ovf_of_ne h with ⟨⟨b, rfl⟩, hfull, -, hcount⟩ | ⟨rfl, hclear⟩
      · exact .inl ⟨hcount, hfull, b, hi⟩
      · exact .inr ⟨hclear, .inl hi⟩
    · exact .inr ⟨rfl, .inr he⟩
  · rcases afterEvent_field_of_ne State.armed h with ⟨i, hi, ht⟩ | ⟨he, ht⟩ <;> rw [ht] at h ⊢
    · rcases opEffect_armed_of_ne h with ⟨rfl, hset⟩ | ⟨rfl | rfl, hclear⟩
      · exact .inl ⟨hset, hi⟩
      · exact .inr ⟨hclear, .inl hi⟩
      · exact .inr ⟨hclear, .inr (.inl hi)⟩
    · exact .inr ⟨rfl, .inr (.inr he)⟩

end Sys2Proof.Machine
end

section
/-! PROOFS. The invariant of the block, unit by unit: the storage, the overflow counter and the PWM unit,
the tone unit; then every step keeps it (40_fifo.md R122, 10_state.md R44, 42_tone.md R169). -/
namespace Sys2Proof.Machine

/-! ### The storage (10_state.md R40, R41) -/

theorem State.StorageOk.congr {s t : State} (h : s.StorageOk) (ht : t.SameFifo s) : t.StorageOk := by
  rwa [State.StorageOk, ht.mem, ht.count_eq, ht.cfg, ht.rbin]

/-- The slot a push writes is the one at distance `count`; the others hold what they held. -/
theorem State.FifoOk.enqueue_storageOk {s : State} (h : s.FifoOk) (hs : s.StorageOk) (b : Byte)
    (hroom : s.wcount ≠ s.cfg.depth) : (s.enqueue b).StorageOk := by
  obtain ⟨hwf, hslots, hheld⟩ := hs
  refine ⟨Memory.write_wf _ _ hwf, fun c hc => ?_, fun k hk => ?_⟩
  · rcases Memory.mem_write hc with rfl | hc
    · exact Nat.mod_lt _ (Params.depth_pos _)
    · exact hslots c hc
  · rw [h.enqueue_count b hroom] at hk
    rw [State.enqueue_mem, State.enqueue_rbin, State.enqueue_cfg, slotOf_eq, Memory.read_write _ _ _ _ hwf]
    split
    · rfl
    · next hother =>
      have hne : k ≠ s.count := fun hkc => hother (hkc ▸ s.slot_count h.wbin_lt h.rbin_lt)
      exact hheld k (by omega)

theorem State.FifoOk.dequeue_storageOk {s : State} (h : s.FifoOk) (hs : s.StorageOk)
    (hview : s.rcount ≠ 0) : s.dequeue.StorageOk := by
  obtain ⟨hwf, hslots, hheld⟩ := hs
  refine ⟨hwf, hslots, fun k hk => ?_⟩
  rw [h.dequeue_count hview] at hk
  rw [State.dequeue_mem, State.dequeue_rbin, State.dequeue_cfg, addW_mod_depth]
  exact hheld (k + 1) (by omega)

theorem State.resetEvent_count (s : State) : s.resetEvent.count = 0 :=
  subW_self (by simp)

/-- After a reset no slot holds a byte, so the storage kept may be any in canonical form. -/
theorem State.resetEvent_storageOk {s : State} (hwf : s.mem.wf) (hslots : ∀ c ∈ s.mem, c.1 < s.cfg.depth) :
    s.resetEvent.StorageOk :=
  ⟨hwf, hslots, fun k hk => absurd hk (by simp [s.resetEvent_count])⟩

/-- Every FIFO step keeps the storage in order (10_state.md R40, R41). -/
theorem FifoStep.storageOk {s t : State} {e : Event} {acc ret : List Byte} (hstep : FifoStep s t e acc ret)
    (h : s.FifoOk) (hs : s.StorageOk) : t.StorageOk := by
  obtain ⟨hwf, hslots, -⟩ := id hs
  cases hstep with
  | push room after => exact (h.enqueue_storageOk hs _ room).congr after
  | pop inView after => exact (h.dequeue_storageOk hs inView).congr after
  | syncW2R after => exact State.StorageOk.congr (s := s.syncW2R) hs after
  | syncR2W after => exact State.StorageOk.congr (s := s.syncR2W) hs after
  | reset after => exact (State.resetEvent_storageOk hwf hslots).congr after
  | quiet after => exact hs.congr after

/-! ### The overflow counter and the PWM unit (10_state.md R35, R45, R46) -/

/-- The count of drops is at most the value at which it saturates (10_state.md R35). -/
theorem afterEvent_ovf_lt {s : State} (e : Event) (h : s.ovf < 2 ^ s.cfg.ovfW) :
    (afterEvent e s).ovf < 2 ^ s.cfg.ovfW := by
  by_cases hne : (afterEvent e s).ovf = s.ovf
  · rwa [hne]
  · rcases afterEvent_field_of_ne State.ovf hne with ⟨i, -, ht⟩ | ⟨-, ht⟩ <;> rw [ht] at hne ⊢
    · rcases opEffect_ovf_of_ne hne with ⟨-, -, hmax, hcount⟩ | ⟨-, hclear⟩
      · rw [Params.ovfMax] at hmax
        omega
      · rw [hclear]; positivity
    · rw [State.resetEvent_ovf]; positivity

/-- Every level fits `PWM_W` bits (10_state.md R45). -/
def Levels.Fit (p : Params) (l : Levels) : Prop := ∀ ch, l.get ch < 2 ^ p.pwmW

theorem Levels.fit_iff {p : Params} {l : Levels} :
    l.Fit p ↔ l.ch0 < 2 ^ p.pwmW ∧ l.ch1 < 2 ^ p.pwmW ∧ l.ch2 < 2 ^ p.pwmW :=
  ⟨fun h => ⟨h .ch0, h .ch1, h .ch2⟩, fun ⟨h0, h1, h2⟩ ch => by cases ch <;> assumption⟩

theorem Levels.Fit.set {p : Params} {l : Levels} (h : l.Fit p) (ch : Channel) (d : Half) :
    (l.set ch (levelOperand p d)).Fit p := by
  intro c
  rw [Levels.get_set]
  split
  · exact trunc_lt _ _
  · exact h c

theorem Params.pwmMax_lt (p : Params) : p.pwmMax < 2 ^ p.pwmW :=
  Nat.sub_lt (by positivity) Nat.one_pos

/-- The levels of power mode, and of reset, are in range (41_pwm.md R146). -/
theorem Levels.fit_power {p : Params} (h : p.Legal) :
    (⟨p.pwmMax, p.pwmMax, p.toneOffLevel⟩ : Levels).Fit p := by
  obtain ⟨-, -, -, -, -, -, -, -, hoff⟩ := h
  exact Levels.fit_iff.mpr ⟨Params.pwmMax_lt p, Params.pwmMax_lt p, hoff.trans_lt (Params.pwmMax_lt p)⟩

theorem afterEvent_level_fit {s : State} (e : Event) (hl : s.cfg.Legal) (h : s.level.Fit s.cfg) :
    (afterEvent e s).level.Fit s.cfg := by
  by_cases hne : (afterEvent e s).level = s.level
  · rwa [hne]
  · rcases afterEvent_field_of_ne State.level hne with ⟨i, -, ht⟩ | ⟨-, ht⟩ <;> rw [ht] at hne ⊢
    · rcases opEffect_level_of_ne hne with ⟨ch, d, hset⟩ | hpower
      · rw [hset]; exact h.set ch d
      · rw [hpower]; exact Levels.fit_power hl
    · exact Levels.fit_power hl

theorem Params.pwmMax_pos {p : Params} (h : p.Legal) : 0 < p.pwmMax := by
  obtain ⟨-, -, -, -, hpwm, -⟩ := h
  exact Nat.sub_pos_of_lt (Nat.one_lt_two_pow (by omega))

/-- The time base never holds `PWM_MAX` (10_state.md R46). -/
theorem afterEvent_pwmOk {s : State} (e : Event) (hl : s.cfg.Legal) (h : s.PwmOk) :
    (afterEvent e s).PwmOk := by
  have hpos := Params.pwmMax_pos hl
  rw [State.PwmOk, afterEvent_cfg]
  cases e with
  | op port w =>
    cases hd : decode s.cfg port w with
    | ok i => rwa [afterEvent_op_ok hd, opEffect_pwmCnt]
    | error d => rwa [afterEvent_op_error hd, State.markRefused_pwmCnt]
  | pwmTb =>
    rw [afterEvent_pwmTb, State.pwmTb_pwmCnt]
    split <;> omega
  | reset => exact hpos
  | syncW2R | syncR2W | toneTmr | partialReset => simpa using h

/-! ### The tone unit (10_state.md R48 to R52, 42_tone.md R169) -/

/-- The clauses of `State.Inv` on the tone unit. -/
structure State.ToneUnitOk (s : State) : Prop where
  pitch_lt : s.pitch < 2 ^ s.cfg.pitchW
  pact_lt : s.pact < 2 ^ s.cfg.pitchW
  toneOk : s.ToneOk

/-- The two states agree on the parameters and the registers of the tone unit. -/
structure State.SameTone (s t : State) : Prop where
  cfg : s.cfg = t.cfg
  pitch : s.pitch = t.pitch
  pact : s.pact = t.pact
  tcnt : s.tcnt = t.tcnt
  armed : s.armed = t.armed
  drive : s.drive = t.drive
  pitchSet : s.pitchSet = t.pitchSet

theorem State.ToneUnitOk.congr {s t : State} (h : s.ToneUnitOk) (ht : t.SameTone s) : t.ToneUnitOk := by
  obtain ⟨hpitch, hpact, htone⟩ := h
  refine ⟨?_, ?_, ?_⟩
  · rwa [ht.cfg, ht.pitch]
  · rwa [ht.cfg, ht.pact]
  · rwa [State.ToneOk, ht.cfg, ht.pitch, ht.pact, ht.tcnt, ht.armed, ht.drive, ht.pitchSet]

theorem State.ToneUnitOk.answer {s : State} (h : s.ToneUnitOk) (p : Port) (r : Option Word) :
    (s.answer p r).ToneUnitOk :=
  h.congr (by constructor <;> simp)

theorem State.ToneUnitOk.markRefused {s : State} (h : s.ToneUnitOk) (r : Refusal) :
    (s.markRefused r).ToneUnitOk :=
  h.congr (by constructor <;> simp)

theorem State.ToneUnitOk.disarm {s : State} (h : s.ToneUnitOk) : s.disarm.ToneUnitOk := by
  obtain ⟨hcnt, -, -, hset⟩ := h.toneOk
  have htwo : 2 ≤ 2 ^ s.cfg.pitchW := by omega
  exact ⟨h.pitch_lt, h.pact_lt, by simpa using htwo, by simp, by simp, hset⟩

theorem State.ToneUnitOk.arm {s : State} (h : s.ToneUnitOk) : s.arm.ToneUnitOk := by
  obtain ⟨hcnt, -, -, hset⟩ := h.toneOk
  have htwo : 2 ≤ 2 ^ s.cfg.pitchW := by omega
  refine ⟨?_, ?_, ?_, ?_, ?_, ?_⟩
  · simpa using h.pitch_lt
  · simpa using h.pitch_lt
  · simpa using htwo
  · simp
  · simp
  · simpa using hset

theorem State.ToneUnitOk.writePitch {s : State} (h : s.ToneUnitOk) (q : Half) :
    State.ToneUnitOk { s with pitch := pitchOperand s.cfg q, pitchSet := true } := by
  obtain ⟨hcnt, hlatch, hidle, -⟩ := h.toneOk
  exact ⟨trunc_lt _ _, h.pact_lt, hcnt, hlatch, hidle, by simp⟩

theorem opEffect_toneUnitOk {s : State} (i : Instr) (h : s.ToneUnitOk) : (opEffect i s).ToneUnitOk := by
  cases i with
  | tonePitch q => exact (h.writePitch q).answer .r none
  | toneInit | toneOff => exact h.disarm.answer .r none
  | toneOn =>
    simp only [opEffect]
    split
    · exact h.answer .r none
    · exact h.arm.answer .r none
  | fifoPush | fifoPop => refine h.congr ?_; simp only [opEffect]; split <;> constructor <;> simp
  | _ => exact h.congr (by constructor <;> simp [opEffect])

/-- The effective pitch fits `PITCH_W` bits in either mode (42_tone.md R162). -/
theorem State.ToneUnitOk.effPitch_lt {s : State} (h : s.ToneUnitOk) : s.effPitch < 2 ^ s.cfg.pitchW := by
  unfold State.effPitch
  split
  · exact h.pact_lt
  · exact h.pitch_lt

/-- The tick counts on only below the effective pitch, else it starts again at 0 (42_tone.md R169). -/
theorem State.ToneUnitOk.toneTmr {s : State} (h : s.ToneUnitOk) : s.toneTmr.ToneUnitOk := by
  by_cases harmed : s.armed = true
  · obtain ⟨hcnt, hlatch, -, hset⟩ := h.toneOk
    have heff := h.effPitch_lt
    have heffLatch : s.cfg.pitchMode = .latch → s.effPitch = s.pact := fun hm => by
      simp only [State.effPitch, hm]
    refine ⟨by simpa using h.pitch_lt, by simpa using h.pact_lt, ?_, fun hm _ => ?_, ?_, by simpa using hset⟩
    · rw [State.toneTmr_tcnt, State.toneTmr_cfg, if_pos harmed]
      split <;> omega
    · have hpact := heffLatch (by simpa using hm)
      rw [State.toneTmr_tcnt, State.toneTmr_pact, if_pos harmed]
      split <;> omega
    · simp [harmed]
  · have hstill : s.toneTmr = s := if_neg harmed
    rwa [hstill]

theorem State.resetEvent_toneUnitOk {s : State} (hl : s.cfg.Legal) : s.resetEvent.ToneUnitOk := by
  obtain ⟨-, -, -, -, -, -, hpitch, -⟩ := hl
  have htwo : 2 ≤ 2 ^ s.cfg.pitchW := Nat.le_self_pow (by omega) 2
  exact ⟨Nat.two_pow_pos _, Nat.two_pow_pos _, htwo, by simp, by simp, by simp⟩

theorem afterEvent_toneUnitOk {s : State} (e : Event) (hl : s.cfg.Legal) (h : s.ToneUnitOk) :
    (afterEvent e s).ToneUnitOk := by
  cases e with
  | op port w =>
    cases hd : decode s.cfg port w with
    | ok i => rw [afterEvent_op_ok hd]; exact opEffect_toneUnitOk i h
    | error d => rw [afterEvent_op_error hd]; exact h.markRefused _
  | toneTmr => exact h.toneTmr
  | reset => exact State.resetEvent_toneUnitOk hl
  | partialReset d => exact h.markRefused (.partialReset d)
  | syncW2R | syncR2W | pwmTb => exact h.congr (by constructor <;> rfl)

/-! ### The whole invariant -/

/-- The invariant is its parts, one per unit; the widths of the Gray copies follow from the pointers'. -/
theorem State.inv_iff {s : State} :
    s.Inv ↔ s.cfg.Legal ∧ s.FifoOk ∧ s.StorageOk ∧ s.ovf < 2 ^ s.cfg.ovfW ∧ s.level.Fit s.cfg ∧
      s.PwmOk ∧ s.ToneUnitOk := by
  rw [Levels.fit_iff]
  constructor
  · intro h
    obtain ⟨hl, ⟨-, -, -, -, -, -, hovf, h0, h1, h2, hpitch, hpact⟩, -, hs, hp, ht⟩ := id h
    exact ⟨hl, h.fifoOk, hs, hovf, ⟨h0, h1, h2⟩, hp, hpitch, hpact, ht⟩
  · rintro ⟨hl, hf, hs, hovf, ⟨h0, h1, h2⟩, hp, ht⟩
    obtain ⟨hwgray, hrgray, -⟩ := hf.pointersOk
    exact ⟨hl, ⟨hf.wbin_lt, hwgray ▸ gray_lt hf.wbin_lt, hf.wqRgray_lt, hf.rbin_lt,
      hrgray ▸ gray_lt hf.rbin_lt, hf.rqWgray_lt, hovf, h0, h1, h2, ht.pitch_lt, ht.pact_lt⟩,
      hf.pointersOk, hs, hp, ht.toneOk⟩

/-- Every event, refused or not, keeps the invariant. -/
theorem State.Inv.afterEvent {s : State} (h : s.Inv) (e : Event) : (Machine.afterEvent e s).Inv := by
  obtain ⟨hl, hf, hs, hovf, hlev, hp, ht⟩ := State.inv_iff.mp h
  rw [State.inv_iff, afterEvent_cfg]
  exact ⟨hl, hf.afterEvent e, (fifoStep_afterEvent e s).storageOk hf hs, afterEvent_ovf_lt e hovf,
    afterEvent_level_fit e hl hlev, afterEvent_pwmOk e hl hp, afterEvent_toneUnitOk e hl ht⟩

/-- The invariant says nothing of the schedule or of the count of free values. -/
theorem State.Inv.takeEvent {s : State} (h : s.Inv) : (Machine.takeEvent s).Inv := by
  unfold Machine.takeEvent
  split <;> exact h

theorem State.Inv.advance {s : State} (h : s.Inv) : (Machine.advance s).Inv := by
  obtain ⟨hl, -⟩ := id h
  rw [advance_of_legal hl]
  exact h.takeEvent.afterEvent _

theorem advance_of_next {s t : State} (h : step s = .next t) : advance s = t := by
  simp only [advance, h]

/-- Settles O22: the step taken is an event on the state with that event off the schedule. -/
theorem everyStepKeepsInvariant : Obligations.EveryStepKeepsInvariant := by
  intro s h
  exact ⟨fun t ht => advance_of_next ht ▸ h.advance, h.advance⟩

/-- Settles O23: the chain is part of the invariant of the next state. -/
theorem viewsBoundTheTrueCount : Obligations.ViewsBoundTheTrueCount := by
  intro s t h ht
  obtain ⟨-, -, hviews⟩ := (advance_of_next ht ▸ h.advance).fifoOk.pointersOk
  exact hviews

end Sys2Proof.Machine
end

section
/-! PROOFS. The two views as residues, and `full` and `empty` in their Gray forms (10_state.md R42, R43). -/
namespace Sys2Proof.Machine

/-- The modular difference is the residue of the integer difference (00_scope.md R18). -/
theorem subW_eq_emod (w a b : Nat) : (subW w a b : Int) = ((a : Int) - b) % 2 ^ w := by
  have hle : b % 2 ^ w ≤ 2 ^ w := (Nat.mod_lt _ (by positivity)).le
  have hdiv := Int.emod_add_mul_ediv (b : Int) (2 ^ w)
  rw [subW, trunc, trunc, Int.natCast_mod, Nat.cast_add, Nat.cast_sub hle]
  push_cast
  rw [Int.emod_eq_emod_iff_emod_sub_eq_zero]
  exact Int.emod_eq_zero_of_dvd ⟨1 + (b : Int) / 2 ^ w, by linarith⟩

/-! ### Half way round the ring: the top bit of a pointer -/

theorem xor_two_pow_of_lt {n b : Nat} (h : b < 2 ^ n) : b ^^^ 2 ^ n = b + 2 ^ n := by
  have hor : b + 2 ^ n = 2 ^ n ||| b := by
    simpa [Nat.add_comm] using Nat.two_pow_add_eq_or_of_lt h 1
  rw [hor]
  refine Nat.eq_of_testBit_eq fun i => ?_
  rw [Nat.testBit_xor, Nat.testBit_or, Nat.testBit_two_pow]
  by_cases hi : n = i
  · subst hi
    simp [Nat.testBit_lt_two_pow h]
  · simp [hi]

/-- Two pointers are `N` apart when they differ in the top bit alone (10_state.md R42). -/
theorem subW_eq_half_iff {n a b : Nat} (ha : a < 2 ^ (n + 1)) (hb : b < 2 ^ (n + 1)) :
    subW (n + 1) a b = 2 ^ n ↔ a = b ^^^ 2 ^ n := by
  have hpow := pow_succ 2 n
  rw [subW_of_lt ha hb]
  by_cases hlow : b < 2 ^ n
  · rw [xor_two_pow_of_lt hlow]
    split <;> omega
  · have hc : b - 2 ^ n < 2 ^ n := by omega
    have hb' : b = (b - 2 ^ n) ^^^ 2 ^ n := by rw [xor_two_pow_of_lt hc]; omega
    have hx : b ^^^ 2 ^ n = b - 2 ^ n := by
      conv_lhs => rw [hb']
      rw [Nat.xor_assoc, Nat.xor_self, Nat.xor_zero]
    rw [hx]
    split <;> omega

theorem gray_xor (a b : Nat) : gray (a ^^^ b) = gray a ^^^ gray b := by
  unfold gray
  rw [Nat.shiftRight_xor_distrib]
  ac_rfl

/-- The Gray code of a top bit is the two top bits. -/
theorem gray_two_pow_succ (m : Nat) : gray (2 ^ (m + 1)) = 3 <<< m := by
  have hlow : 2 ^ (m + 1) >>> 1 = 2 ^ m := by
    rw [Nat.shiftRight_eq_div_pow, pow_succ, pow_one, Nat.mul_div_cancel _ Nat.two_pos]
  calc gray (2 ^ (m + 1)) = 2 ^ (m + 1) ^^^ 2 ^ m := by rw [gray, hlow]
    _ = 2 <<< m ^^^ 1 <<< m := by rw [Nat.shiftLeft_eq, Nat.shiftLeft_eq, pow_succ, one_mul, mul_comm]
    _ = 3 <<< m := Nat.shiftLeft_xor_distrib.symm

/-- `full` in Gray form, for pointers in range and a FIFO of at least two slots (10_state.md R42). -/
theorem State.FifoOk.full_iff_gray {s : State} (h : s.FifoOk) (hdeep : 1 ≤ s.cfg.addrW) :
    s.wcount = s.cfg.depth ↔ s.wgray = s.wqRgray ^^^ (3 <<< (s.cfg.ptrW - 2)) := by
  obtain ⟨hwgray, -⟩ := h.pointersOk
  have hbin := bin_lt _ _ h.wqRgray_lt
  have htop : gray s.cfg.depth = 3 <<< (s.cfg.ptrW - 2) := by
    have hsplit : s.cfg.addrW = s.cfg.ptrW - 2 + 1 := by rw [Params.ptrW]; omega
    rw [Params.depth, hsplit, gray_two_pow_succ]
  have hflip : bin s.cfg.ptrW s.wqRgray ^^^ s.cfg.depth < 2 ^ s.cfg.ptrW :=
    Nat.xor_lt_two_pow hbin (Nat.pow_lt_pow_right Nat.one_lt_two (Nat.lt_succ_self _))
  calc s.wcount = s.cfg.depth
      ↔ s.wbin = bin s.cfg.ptrW s.wqRgray ^^^ s.cfg.depth := subW_eq_half_iff h.wbin_lt hbin
    _ ↔ gray s.wbin = gray (bin s.cfg.ptrW s.wqRgray ^^^ s.cfg.depth) := (gray_inj h.wbin_lt hflip).symm
    _ ↔ s.wgray = s.wqRgray ^^^ (3 <<< (s.cfg.ptrW - 2)) := by
      rw [gray_xor, gray_bin _ _ h.wqRgray_lt, htop, hwgray]

theorem State.full_iff (s : State) : s.full = true ↔ s.wcount = s.cfg.depth := decide_eq_true_iff

theorem State.empty_iff (s : State) : s.empty = true ↔ s.rqWgray = s.rgray := decide_eq_true_iff

/-- `empty` by its two definitions, for pointers in range (10_state.md R43). -/
theorem State.FifoOk.empty_iff_rcount {s : State} (h : s.FifoOk) : s.empty = true ↔ s.rcount = 0 := by
  obtain ⟨-, hrgray, -⟩ := h.pointersOk
  have hbin := bin_lt _ _ h.rqWgray_lt
  calc s.empty = true
      ↔ gray (bin s.cfg.ptrW s.rqWgray) = gray s.rbin := by
        rw [s.empty_iff, gray_bin _ _ h.rqWgray_lt, hrgray]
    _ ↔ bin s.cfg.ptrW s.rqWgray = s.rbin := gray_inj hbin h.rbin_lt
    _ ↔ s.rcount = 0 := (subW_eq_zero hbin h.rbin_lt).symm

/-- Settles O25: the view is a modular difference, and `full` is its being half way round the ring. -/
theorem producerViewAndFull : Obligations.ProducerViewAndFull := by
  intro s
  refine ⟨subW_eq_emod _ _ _, s.full_iff, fun h => ?_⟩
  obtain ⟨⟨hdeep, -⟩, -⟩ := id h
  exact s.full_iff.trans (h.fifoOk.full_iff_gray hdeep)

/-- Settles O26: the view is a modular difference, and the two forms of `empty` agree as `gray` is
injective. -/
theorem consumerViewAndEmpty : Obligations.ConsumerViewAndEmpty := by
  intro s
  exact ⟨subW_eq_emod _ _ _, s.empty_iff, fun h => h.fifoOk.empty_iff_rcount⟩

end Sys2Proof.Machine
end

section
/-! PROOFS. Noninterference: what an op reads and writes lies in its port's own side (10_state.md R42, R43,
R57, 20_memory.md R81). -/
namespace Sys2Proof.Machine

/-! ### The read side -/

section
variable {s u : State} (h : SameReadSide s u)
include h

theorem SameReadSide.rcount_eq : s.rcount = u.rcount := by
  rw [State.rcount, State.rcount, h.cfg, h.rqWgray, h.rbin]

theorem SameReadSide.empty_eq : s.empty = u.empty := by
  rw [State.empty, State.empty, h.rqWgray, h.rgray]

theorem SameReadSide.answer (p : Port) (r r' : Option Word) :
    SameReadSide (s.answer p r) (u.answer p r') := by
  cases p <;> exact { h with }

theorem SameReadSide.underflow : SameReadSide s.underflow u.underflow :=
  { h with unf := rfl, viol := by simp [h.viol], draws := by simp [h.draws] }

theorem SameReadSide.dequeue : SameReadSide s.dequeue u.dequeue :=
  { h with rbin := by simp [h.cfg, h.rbin], rgray := by simp [h.cfg, h.rbin] }

theorem SameReadSide.disarm : SameReadSide s.disarm u.disarm :=
  { h with armed := rfl, tcnt := rfl, drive := by simp [h.cfg] }

theorem SameReadSide.arm : SameReadSide s.arm u.arm := by
  constructor <;> simp [h.cfg, h.rbin, h.rgray, h.rqWgray, h.unf, h.mem, h.level, h.pwmCnt, h.relayOpen,
    h.pitch, h.drive, h.viol, h.pitchSet, h.draws]

/-- An R-port op writes the read side from the read side alone. -/
theorem SameReadSide.opEffect {i : Instr} (hi : i.port = .r) :
    SameReadSide (opEffect i s) (opEffect i u) := by
  cases i with
  | fifoPush | fifoFull | fifoWcount | fifoOvfcnt | fifoOvfclr => cases hi
  | fifoPop =>
    simp only [Machine.opEffect, ← h.rcount_eq]
    split
    · exact h.underflow.answer ..
    · exact h.dequeue.answer ..
  | fifoUnfclr =>
    simp only [Machine.opEffect]
    refine SameReadSide.answer ?_ ..
    exact { h with unf := rfl }
  | pwmSet ch l =>
    simp only [Machine.opEffect]
    refine SameReadSide.answer ?_ ..
    exact { h with level := by rw [h.level, h.cfg] }
  | pwmPower =>
    simp only [Machine.opEffect]
    refine SameReadSide.answer ?_ ..
    exact { h with level := by rw [h.cfg] }
  | relaySet b =>
    simp only [Machine.opEffect]
    refine SameReadSide.answer ?_ ..
    exact { h with relayOpen := rfl }
  | tonePitch q =>
    simp only [Machine.opEffect]
    refine SameReadSide.answer ?_ ..
    exact { h with pitch := by rw [h.cfg], pitchSet := rfl }
  | toneInit | toneOff =>
    simp only [Machine.opEffect]
    exact h.disarm.answer ..
  | toneOn =>
    simp only [Machine.opEffect, ← h.armed]
    split
    · exact h.answer ..
    · exact h.arm.answer ..
  | fifoEmpty | fifoRcount | fifoUnflag | pwmGet | relayGet | toneGetpitch | toneStatus =>
    simp only [Machine.opEffect]
    exact h.answer ..

/-- The result word of an R-port op other than `FIFO.POP` is read off the read side. -/
theorem SameReadSide.opEffect_rResult {i : Instr} (hi : i.port = .r) (hpop : i ≠ .fifoPop) :
    (Machine.opEffect i s).rResult = (Machine.opEffect i u).rResult := by
  cases i with
  | fifoPush | fifoFull | fifoWcount | fifoOvfcnt | fifoOvfclr => cases hi
  | fifoPop => exact absurd rfl hpop
  | _ => simp [Machine.opEffect, h.empty_eq, h.rcount_eq, h.unf, h.level, h.relayOpen, h.pitch, h.drive, h.armed]

/-- The result of a pop from a view that holds a byte is read off the read side and the storage. -/
theorem SameReadSide.opEffect_fifoPop_rResult (hview : s.rcount ≠ 0) :
    (Machine.opEffect .fifoPop s).rResult = (Machine.opEffect .fifoPop u).rResult := by
  have hhead : s.headByte = u.headByte := by rw [State.headByte, State.headByte, h.cfg, h.mem, h.rbin]
  have hview' : u.rcount ≠ 0 := h.rcount_eq ▸ hview
  simp [Machine.opEffect, hview, hview', hhead]

end

/-- A pop of an empty view answers `valid = 0` (40_fifo.md R111). -/
theorem opEffect_fifoPop_invalid {s : State} (hempty : s.rcount = 0) :
    (opEffect .fifoPop s).rResult.map (·.getLsbD 8) = some false := by
  simp only [opEffect, hempty, if_true, State.answer_r_rResult, Option.map_some, popResult_valid]

/-! ### The write side -/

section
variable {s u : State} (h : SameWriteSide s u)
include h

theorem SameWriteSide.wcount_eq : s.wcount = u.wcount := by
  rw [State.wcount, State.wcount, h.cfg, h.wbin, h.wqRgray]

theorem SameWriteSide.full_eq : s.full = u.full := by
  rw [State.full, State.full, h.wcount_eq, h.cfg]

theorem SameWriteSide.answer (p : Port) (r r' : Option Word) :
    SameWriteSide (s.answer p r) (u.answer p r') := by
  cases p <;> exact { h with }

theorem SameWriteSide.enqueue (b : Byte) : SameWriteSide (s.enqueue b) (u.enqueue b) :=
  { h with
    wbin := by simp [h.cfg, h.wbin]
    wgray := by simp [h.cfg, h.wbin]
    mem := by simp [h.cfg, h.wbin, h.mem] }

theorem SameWriteSide.dropByte : SameWriteSide s.dropByte u.dropByte :=
  { h with ovf := by simp [h.cfg, h.ovf] }

/-- A W-port op writes the write side from the write side alone. -/
theorem SameWriteSide.opEffect {i : Instr} (hi : i.port = .w) :
    SameWriteSide (opEffect i s) (opEffect i u) := by
  cases i with
  | fifoPush b =>
    simp only [Machine.opEffect, ← h.wcount_eq, ← h.cfg]
    split
    · exact h.dropByte.answer ..
    · exact (h.enqueue b).answer ..
  | fifoOvfclr =>
    simp only [Machine.opEffect]
    refine SameWriteSide.answer ?_ ..
    exact { h with ovf := rfl }
  | fifoFull | fifoWcount | fifoOvfcnt =>
    simp only [Machine.opEffect]
    exact h.answer ..
  | _ => cases hi

/-- The result word of a W-port op is read off the write side. -/
theorem SameWriteSide.opEffect_wResult {i : Instr} (hi : i.port = .w) :
    (Machine.opEffect i s).wResult = (Machine.opEffect i u).wResult := by
  cases i with
  | fifoPush | fifoOvfclr => rfl
  | fifoFull | fifoWcount | fifoOvfcnt => simp [Machine.opEffect, h.full_eq, h.wcount_eq, h.ovf]
  | _ => cases hi

end

/-- Settles O50: both sides op by op; the pop's result where the byte is the storage's, and where it is
unspecified only its `valid` bit. -/
theorem portsDependOnTheirOwnDomain : Obligations.PortsDependOnTheirOwnDomain := by
  intro i s u s' u' hs hu
  rw [exec_eq] at hs hu
  cases hs
  cases hu
  refine ⟨fun hi h => ⟨h.opEffect hi, fun hcompared => ?_, ?_⟩,
    fun hi h => ⟨h.opEffect hi, h.opEffect_wResult hi⟩⟩
  · by_cases hpop : i = .fifoPop
    · subst hpop
      obtain hne | ⟨hview, -⟩ := hcompared
      · exact absurd rfl hne
      · exact h.opEffect_fifoPop_rResult hview
    · exact h.opEffect_rResult hi hpop
  · rintro rfl hempty
    exact ⟨opEffect_fifoPop_invalid hempty, opEffect_fifoPop_invalid (h.rcount_eq ▸ hempty)⟩

end Sys2Proof.Machine
end

section
/-! PROOFS. Reset and power-on (10_state.md R59, 70_reset_and_hazards.md R200). -/
namespace Sys2Proof.Machine

/-- Settles O14: the step is the reset event's, and a cycle with reset asserted is that event alone. -/
theorem resetEventLoadsTable : Obligations.ResetEventLoadsTable := by
  intro s rest hl hp
  exact ⟨step_of_pending_cons hl hp, fun _ _ => rfl, fun _ _ _ _ => rfl⟩

/-- Reset does nothing to a block just powered on. -/
theorem State.resetEvent_resetWith (p : Params) : (State.resetWith p).resetEvent = State.resetWith p := rfl

/-- A reset establishes the invariant over any storage in canonical form. -/
theorem State.resetEvent_inv {s : State} (hl : s.cfg.Legal) (hwf : s.mem.wf)
    (hslots : ∀ c ∈ s.mem, c.1 < s.cfg.depth) : s.resetEvent.Inv :=
  State.inv_iff.mpr ⟨hl, s.resetEvent_fifoOk, State.resetEvent_storageOk hwf hslots, by simp,
    Levels.fit_power hl, Params.pwmMax_pos hl, State.resetEvent_toneUnitOk hl⟩

/-- Settles O21: the power-on state is what a reset makes of it, and its storage is empty. -/
theorem invariantHoldsAtPowerOn : Obligations.InvariantHoldsAtPowerOn := by
  intro p hl
  rw [← State.resetEvent_resetWith p]
  exact State.resetEvent_inv hl (State.resetWith_mem_wf p) (fun _ hc => absurd hc List.not_mem_nil)

/-- With the tone line off at power-on, every output is high (41_pwm.md R140). -/
theorem State.resetWith_chOutBits {p : Params} (hl : p.Legal) (hoff : p.toneOffLevel = p.pwmMax) :
    (State.resetWith p).chOutBits = 0b111#3 := by
  have hpos := Params.pwmMax_pos hl
  have hout : ∀ ch, (State.resetWith p).chOut ch = true := fun ch => by
    cases ch <;> simp [State.chOut, State.resetWith, Levels.get, hoff, hpos]
  simp only [State.chOutBits, hout]
  rfl

/-- Settles O20: the fields by definition; the true count is 0, and so are the views, which it bounds or
which a synchroniser step would leave as they are. -/
theorem powerOnState : Obligations.PowerOnState := by
  intro p hl s
  have hcount : s.count = 0 := s.resetEvent_count
  have hrcount : s.rcount = 0 := by
    obtain ⟨-, -, hle, -⟩ := s.resetEvent_fifoOk.pointersOk
    exact Nat.le_zero.mp (hcount ▸ hle)
  have hwcount : s.wcount = 0 := s.resetEvent_fifoOk.syncR2W_wcount.trans hcount
  have hfull : s.full = false := by
    simp [State.full, hwcount, (Params.depth_pos _).ne]
  refine ⟨rfl, rfl, rfl, rfl, rfl, rfl, rfl, rfl, rfl, rfl, rfl, rfl, rfl, rfl, rfl, rfl,
    fun k => by cases k <;> rfl, rfl, rfl, hcount, hrcount, hwcount, rfl, hfull,
    State.resetWith_chOutBits hl, rfl, rfl, rfl, rfl, rfl, rfl⟩

end Sys2Proof.Machine
end

section
/-! PROOFS. The bytes held along a list of events, and what each side's view of them lets it do
(20_memory.md R77 to R79). -/
namespace Sys2Proof.Machine

theorem State.SameFifo.contents_eq {s t : State} (h : s.SameFifo t) : s.contents = t.contents := by
  rw [State.contents, State.contents, h.count_eq, h.mem, h.rbin, h.cfg]

theorem State.syncW2R_contents (s : State) : s.syncW2R.contents = s.contents := rfl
theorem State.syncR2W_contents (s : State) : s.syncR2W.contents = s.contents := rfl

theorem State.resetEvent_contents (s : State) : s.resetEvent.contents = [] :=
  List.eq_nil_of_length_eq_zero (s.resetEvent.contents_length.trans s.resetEvent_count)

/-- A byte accepted goes behind those held, and a byte returned is the first of them. -/
theorem FifoStep.contents_eq {s t : State} {e : Event} {acc ret : List Byte} (hstep : FifoStep s t e acc ret)
    (h : s.FifoOk) (hwf : s.mem.wf) (he : e ≠ .reset) : ret ++ t.contents = s.contents ++ acc := by
  obtain ⟨-, -, hrc, hcw, hwd⟩ := h.pointersOk
  cases hstep with
  | push room after =>
    have hroom : s.count < s.cfg.depth := by omega
    rw [after.contents_eq, s.contents_enqueue _ h.wbin_lt h.rbin_lt hwf hroom, List.nil_append]
  | pop inView after =>
    have hheld : 0 < s.count := by omega
    rw [after.contents_eq, s.contents_dequeue h.wbin_lt h.rbin_lt hheld, List.append_nil,
      List.singleton_append]
  | syncW2R after => simp [after.contents_eq, s.syncW2R_contents]
  | syncR2W after => simp [after.contents_eq, s.syncR2W_contents]
  | reset after => exact absurd rfl he
  | quiet after => simp [after.contents_eq]

/-- What is returned and then still held is what was held and then accepted (20_memory.md R77). -/
theorem State.Inv.returned_append_contents {s : State} (h : s.Inv) {es : List Event} (hreset : .reset ∉ es) :
    returned es s ++ (afterEvents es s).contents = s.contents ++ accepted es s := by
  induction es generalizing s with
  | nil => simp [returned, accepted]
  | cons e es ih =>
    obtain ⟨he, hes⟩ := List.ne_and_not_mem_of_not_mem_cons hreset
    obtain ⟨-, -, -, ⟨hwf, -⟩, -⟩ := id h
    have hstep := (fifoStep_afterEvent e s).contents_eq h.fifoOk hwf he.symm
    calc returned (e :: es) s ++ (afterEvents (e :: es) s).contents
        = returnedBy e s ++ (returned es (Machine.afterEvent e s) ++
            (afterEvents es (Machine.afterEvent e s)).contents) := List.append_assoc ..
      _ = (returnedBy e s ++ (Machine.afterEvent e s).contents) ++ accepted es (Machine.afterEvent e s) := by
        rw [ih (h.afterEvent e) hes, List.append_assoc]
      _ = s.contents ++ accepted (e :: es) s := by rw [hstep, List.append_assoc, accepted]

/-- Settles O33: by the order kept along the list; from an empty FIFO, what is still held is the rest of
what was accepted. -/
theorem fifoDeliversInReceiptOrder : Obligations.FifoDeliversInReceiptOrder := by
  intro s es h hreset
  have horder := h.returned_append_contents hreset
  refine ⟨horder, fun hempty => ⟨(afterEvents es s).contents, ?_⟩, s.resetEvent_contents⟩
  rw [horder, hempty, List.nil_append]

/-- Along a list without `SYNC_W2R`, the consumer's view falls by what is returned. -/
theorem State.FifoOk.returned_length_add_rcount {s : State} (h : s.FifoOk) {es : List Event}
    (hreset : .reset ∉ es) (hsync : .syncW2R ∉ es) :
    (returned es s).length + (afterEvents es s).rcount = s.rcount := by
  induction es generalizing s with
  | nil => simp [returned]
  | cons e es ih =>
    obtain ⟨he, hes⟩ := List.ne_and_not_mem_of_not_mem_cons hreset
    obtain ⟨hesync, hessync⟩ := List.ne_and_not_mem_of_not_mem_cons hsync
    have hstep := (fifoStep_afterEvent e s).rcount_add h he.symm hesync.symm
    have hrest := ih (h.afterEvent e) hes hessync
    rw [returned, afterEvents_cons, List.length_append]
    omega

/-- Along a list without `SYNC_R2W`, the producer's view grows by what is accepted. -/
theorem State.FifoOk.accepted_length_add_wcount {s : State} (h : s.FifoOk) {es : List Event}
    (hreset : .reset ∉ es) (hsync : .syncR2W ∉ es) :
    (accepted es s).length + s.wcount = (afterEvents es s).wcount := by
  induction es generalizing s with
  | nil => simp [accepted]
  | cons e es ih =>
    obtain ⟨he, hes⟩ := List.ne_and_not_mem_of_not_mem_cons hreset
    obtain ⟨hesync, hessync⟩ := List.ne_and_not_mem_of_not_mem_cons hsync
    have hstep := (fifoStep_afterEvent e s).wcount_eq h he.symm hesync.symm
    have hrest := ih (h.afterEvent e) hes hessync
    rw [accepted, afterEvents_cons, List.length_append]
    omega

/-- Settles O35: the balance of the consumer's view, and the view after a `SYNC_W2R`. -/
theorem pushIsVisibleOnlyAfterSync : Obligations.PushIsVisibleOnlyAfterSync := by
  intro s es h hreset
  exact ⟨h.fifoOk.returned_length_add_rcount hreset, h.fifoOk.syncW2R_rcount⟩

/-- Settles O36: the balance of the producer's view, and the view after a `SYNC_R2W`. -/
theorem slotIsReusedOnlyAfterSync : Obligations.SlotIsReusedOnlyAfterSync := by
  intro s es h hreset
  exact ⟨h.fifoOk.accepted_length_add_wcount hreset, h.fifoOk.syncR2W_wcount⟩

end Sys2Proof.Machine
end

section
/-! PROOFS. Every byte offered is accepted, or dropped and counted (20_memory.md R80, 10_state.md R35). -/
namespace Sys2Proof.Machine

theorem offeredBy_op_ok {port : Port} {w : Word} {i : Instr} {s : State} (h : decode s.cfg port w = .ok i) :
    offeredBy (.op port w) s = match i with
      | .fifoPush _ => 1
      | _ => 0 := by
  simp only [offeredBy, h]
  cases i <;> rfl

theorem clearsOvf_iff {e : Event} {s : State} :
    clearsOvf e s = true ↔ spells e s .fifoOvfclr ∨ e = .reset := by
  cases e with
  | op port w =>
    cases hd : decode s.cfg port w with
    | ok i => cases i <;> simp [clearsOvf, spells, hd]
    | error d => simp [clearsOvf, spells, hd]
  | _ => simp [clearsOvf, spells]

theorem opEffect_ovf {i : Instr} (s : State) (hpush : ∀ b, i ≠ .fifoPush b) (hclear : i ≠ .fifoOvfclr) :
    (opEffect i s).ovf = s.ovf := by
  by_contra hne
  obtain ⟨⟨b, rfl⟩, -⟩ | ⟨rfl, -⟩ := opEffect_ovf_of_ne hne
  · exact hpush b rfl
  · exact hclear rfl

/-- What clears nothing never lowers the count of drops. -/
theorem ovf_le_afterEvent {e : Event} {s : State} (hclear : clearsOvf e s = false) :
    s.ovf ≤ (afterEvent e s).ovf := by
  by_cases heq : (afterEvent e s).ovf = s.ovf
  · exact heq.ge
  obtain ⟨-, hovf, -⟩ := flagsChangeOnlyAsListed e s _ rfl
  obtain ⟨hcount, -⟩ | ⟨-, hclears⟩ := hovf heq
  · omega
  · exact absurd (clearsOvf_iff.mpr hclears) (by simp [hclear])

theorem ovf_le_afterEvents {es : List Event} {s : State} (hclear : clearsOvfIn es s = false) :
    s.ovf ≤ (afterEvents es s).ovf := by
  induction es generalizing s with
  | nil => exact le_rfl
  | cons e es ih =>
    obtain ⟨he, hes⟩ := Bool.or_eq_false_iff.mp hclear
    exact (ovf_le_afterEvent he).trans (ih hes)

/-- One event: a byte offered is accepted where there is room, and else counted while the count is below
its maximum. -/
theorem offeredBy_add_ovf {e : Event} {s : State} (hclear : clearsOvf e s = false)
    (hsat : s.ovf < s.cfg.ovfMax) :
    offeredBy e s + s.ovf = (acceptedBy e s).length + (afterEvent e s).ovf := by
  cases e with
  | op port w =>
    cases hd : decode s.cfg port w with
    | ok i =>
      rw [offeredBy_op_ok hd, acceptedBy_op_ok hd, afterEvent_op_ok hd]
      cases i with
      | fifoPush b =>
        by_cases hfull : s.wcount = s.cfg.depth
        · simp [State.full, opEffect, hfull, hsat, Nat.add_comm]
        · simp [State.full, opEffect, hfull]
      | fifoOvfclr => simp [clearsOvf, hd] at hclear
      | _ => simp [opEffect_ovf]
    | error d => simp [offeredBy, acceptedBy, hd, afterEvent_op_error hd]
  | reset => simp [clearsOvf] at hclear
  | _ => simp [offeredBy, acceptedBy]

/-- Settles O34: the count never falls along the list, so it is below its maximum at every event. -/
theorem dropsAreCounted : Obligations.DropsAreCounted := by
  intro s es hclear hsat
  induction es generalizing s with
  | nil => simp [offered, accepted]
  | cons e es ih =>
    obtain ⟨he, hes⟩ := Bool.or_eq_false_iff.mp hclear
    have hbelow : s.ovf < s.cfg.ovfMax := (ovf_le_afterEvents hclear).trans_lt hsat
    have hstep := offeredBy_add_ovf he hbelow
    have hrest := ih (afterEvent e s) hes (by simpa using hsat)
    rw [offered, accepted, afterEvents_cons, List.length_append]
    omega

end Sys2Proof.Machine
end

section
/-! PROOFS. What each side's steps leave alone (20_memory.md R81). -/
namespace Sys2Proof.Machine

/-- The decoder gives a port only the ops of that port (30_encoding.md R97, R98). -/
theorem port_of_decode {p : Params} {port : Port} {w : Word} {i : Instr} (h : decode p port w = .ok i) :
    i.port = port := by
  unfold decode at h
  split at h
  · split at h
    · cases h
      assumption
    · cases h
  · cases h

/-- A W-port op writes nothing of the read side but the storage, which the sides share. -/
theorem opEffect_sameReadSide {i : Instr} (s : State) (hi : i.port = .w) :
    SameReadSide { opEffect i s with mem := s.mem } s := by
  cases i with
  | fifoPush b => simp only [opEffect]; split <;> constructor <;> simp
  | fifoFull | fifoWcount | fifoOvfcnt | fifoOvfclr => constructor <;> rfl
  | _ => cases hi

/-- An R-port op writes nothing of the write side. -/
theorem opEffect_sameWriteSide {i : Instr} (s : State) (hi : i.port = .r) :
    SameWriteSide (opEffect i s) s := by
  cases i with
  | fifoPush | fifoFull | fifoWcount | fifoOvfcnt | fifoOvfclr => cases hi
  | fifoPop | toneOn => simp only [opEffect]; split <;> constructor <;> simp
  | _ => constructor <;> rfl

/-! A refusal leaves both sides alone (60_exceptions.md R182). -/

theorem State.sameReadSide_markRefused (s : State) (r : Refusal) : SameReadSide (s.markRefused r) s := by
  constructor <;> simp

theorem State.sameWriteSide_markRefused (s : State) (r : Refusal) : SameWriteSide (s.markRefused r) s := by
  constructor <;> simp

/-- Settles O49: a word by whether its port's decoder takes it, the internal steps by their one write. -/
theorem domainsWriteOnlyTheirOwn : Obligations.DomainsWriteOnlyTheirOwn := by
  intro s w
  constructor
  · rintro e (rfl | rfl)
    · cases hd : decode s.cfg .w w with
      | ok i => rw [afterEvent_op_ok hd]; exact opEffect_sameReadSide s (port_of_decode hd)
      | error d => rw [afterEvent_op_error hd]; exact { s.sameReadSide_markRefused _ with mem := rfl }
    · constructor <;> rfl
  · rintro e (rfl | rfl | rfl | rfl)
    · cases hd : decode s.cfg .r w with
      | ok i => rw [afterEvent_op_ok hd]; exact opEffect_sameWriteSide s (port_of_decode hd)
      | error d => rw [afterEvent_op_error hd]; exact s.sameWriteSide_markRefused _
    · constructor <;> rfl
    · constructor <;> rfl
    · constructor <;> simp

end Sys2Proof.Machine
end

section
/-! PROOFS. Ops performed twice (20_memory.md R74). -/
namespace Sys2Proof.Machine

theorem Levels.set_set (l : Levels) (ch : Channel) (v : Nat) : (l.set ch v).set ch v = l.set ch v := by
  cases ch <;> rfl

/-- No op but `FIFO.PUSH` and `FIFO.POP` reads what it writes, except that `PWM.SET` keeps the other two
levels and that `TONE.ON` does nothing where it finds `armed` set. -/
theorem opEffect_opEffect {i : Instr} (s : State) (hpush : ∀ b, i ≠ .fifoPush b) (hpop : i ≠ .fifoPop) :
    opEffect i (opEffect i s) = opEffect i s := by
  cases i with
  | fifoPush b => exact absurd rfl (hpush b)
  | fifoPop => exact absurd rfl hpop
  | pwmSet ch l => simp only [opEffect, State.answer, Levels.set_set]
  | toneOn =>
    by_cases harmed : s.armed = true
    · simp [opEffect, State.answer, harmed]
    · simp [opEffect, State.answer, State.arm, harmed]
  | _ => rfl

/-- Settles O52: every op has its effect as the next state, and the effect is idempotent. -/
theorem opsAreIdempotentButPushAndPop : Obligations.OpsAreIdempotentButPushAndPop := by
  intro i s t hpush hpop h
  rw [exec_eq] at h ⊢
  cases h
  rw [opEffect_opEffect s hpush hpop]

end Sys2Proof.Machine
end

section
/-! PROOFS. The decoder and the encoder are inverse (30_encoding.md R90 to R98): what each row's decoder
takes, and with it what a word spells. -/
namespace Sys2Proof

theorem encode_eq_iff {i : Instr} {w : Word} :
    encode i = w ↔ opcodeOf w = i.opcode ∧ selOf w = i.selField ∧ dataOf w = i.dataField := by
  constructor
  · rintro rfl
    exact Laws.EncodedFields.ofEncode i
  · rintro ⟨hop, hsel, hdata⟩
    rw [encode, ← hop, ← hsel, ← hdata, makeWord_fields]

/-! ### The decoder of each row's operands (30_encoding.md R91, R94) -/

theorem channelOf_eq_some_iff {sel : Byte} {ch : Channel} : channelOf sel = some ch ↔ sel = ch.sel := by
  constructor
  · unfold channelOf
    split_ifs with h0 h1 h2
    all_goals rintro ⟨⟩
    exacts [h0, h1, h2]
  · rintro rfl
    cases ch <;> rfl

theorem decodePlain_eq_some_iff {sel : Byte} {data : Half} {i j : Instr} :
    decodePlain sel data i = some j ↔ sel = 0#8 ∧ data = 0#16 ∧ i = j := by
  simp [decodePlain, and_assoc]

theorem eq_setWidth_byte_iff {data : Half} {b : Byte} :
    data = b.setWidth 16 ↔ data.toNat < 2 ^ 8 ∧ data.setWidth 8 = b := by
  constructor
  · rintro rfl
    exact ⟨by simp; omega, by simp⟩
  · rintro ⟨hlt, rfl⟩
    exact BitVec.eq_of_toNat_eq (by simp; omega)

theorem eq_setWidth_bit_iff {data : Half} {u : Bool} :
    data = (BitVec.ofBool u).setWidth 16 ↔ data.toNat < 2 ^ 1 ∧ data.getLsbD 0 = u := by
  constructor
  · rintro rfl
    cases u <;> decide
  · rintro ⟨hlt, rfl⟩
    obtain rfl | rfl : data = 0#16 ∨ data = 1#16 := by bv_omega
    · rfl
    · rfl

theorem decodePush_eq_some_iff {sel : Byte} {data : Half} {j : Instr} :
    decodePush sel data = some j ↔ ∃ b, sel = 0#8 ∧ data = b.setWidth 16 ∧ .fifoPush b = j := by
  simp [decodePush, eq_setWidth_byte_iff, and_assoc]

theorem decodeRelaySet_eq_some_iff {sel : Byte} {data : Half} {j : Instr} :
    decodeRelaySet sel data = some j ↔
      ∃ u, sel = 0#8 ∧ data = (BitVec.ofBool u).setWidth 16 ∧ .relaySet u = j := by
  simp [decodeRelaySet, eq_setWidth_bit_iff, and_assoc]

theorem decodePwmSet_eq_some_iff {p : Params} {sel : Byte} {data : Half} {j : Instr} :
    decodePwmSet p sel data = some j ↔
      ∃ ch, sel = ch.sel ∧ data.toNat < 2 ^ p.pwmW ∧ .pwmSet ch data = j := by
  simp only [decodePwmSet, ← channelOf_eq_some_iff]
  cases channelOf sel <;> simp

theorem decodePwmGet_eq_some_iff {sel : Byte} {data : Half} {j : Instr} :
    decodePwmGet sel data = some j ↔ ∃ ch, sel = ch.sel ∧ data = 0#16 ∧ .pwmGet ch = j := by
  simp only [decodePwmGet, ← channelOf_eq_some_iff]
  cases channelOf sel <;> simp

theorem decodePitch_eq_some_iff {p : Params} {sel : Byte} {data : Half} {j : Instr} :
    decodePitch p sel data = some j ↔ sel = 0#8 ∧ data.toNat < 2 ^ p.pitchW ∧ .tonePitch data = j := by
  simp [decodePitch, and_assoc]

/-! ### What a word spells -/

/-- The op a word spells has the word's opcode, and its operands are the word's other two fields. -/
theorem fields_of_decodeRow {p : Params} {w : Word} {i : Instr} (h : decodeRow p w = some i) :
    (opcodeOf w = i.opcode ∧ selOf w = i.selField ∧ dataOf w = i.dataField) ∧ i.wellFormed p = true := by
  unfold decodeRow at h
  split at h
  case h_22 => cases h
  case h_1 hop =>
    obtain ⟨b, hsel, hdata, rfl⟩ := decodePush_eq_some_iff.1 h
    exact ⟨⟨hop, hsel, hdata⟩, rfl⟩
  case h_11 hop =>
    obtain ⟨ch, hsel, hfit, rfl⟩ := decodePwmSet_eq_some_iff.1 h
    exact ⟨⟨hop, hsel, rfl⟩, decide_eq_true hfit⟩
  case h_12 hop =>
    obtain ⟨ch, hsel, hdata, rfl⟩ := decodePwmGet_eq_some_iff.1 h
    exact ⟨⟨hop, hsel, hdata⟩, rfl⟩
  case h_14 hop =>
    obtain ⟨u, hsel, hdata, rfl⟩ := decodeRelaySet_eq_some_iff.1 h
    exact ⟨⟨hop, hsel, hdata⟩, rfl⟩
  case h_16 hop =>
    obtain ⟨hsel, hfit, rfl⟩ := decodePitch_eq_some_iff.1 h
    exact ⟨⟨hop, hsel, rfl⟩, decide_eq_true hfit⟩
  all_goals
    obtain ⟨hsel, hdata, rfl⟩ := decodePlain_eq_some_iff.1 h
    exact ⟨⟨‹_›, hsel, hdata⟩, rfl⟩

theorem decodeRow_encode {p : Params} {i : Instr} (h : i.wellFormed p = true) :
    decodeRow p (encode i) = some i := by
  unfold encode decodeRow
  rw [opcodeOf_makeWord, selOf_makeWord, dataOf_makeWord]
  cases i with
  | fifoPush b => exact decodePush_eq_some_iff.2 ⟨b, rfl, rfl, rfl⟩
  | pwmSet ch l => exact decodePwmSet_eq_some_iff.2 ⟨ch, rfl, of_decide_eq_true h, rfl⟩
  | pwmGet ch => exact decodePwmGet_eq_some_iff.2 ⟨ch, rfl, rfl, rfl⟩
  | relaySet u => exact decodeRelaySet_eq_some_iff.2 ⟨u, rfl, rfl, rfl⟩
  | tonePitch q => exact decodePitch_eq_some_iff.2 ⟨rfl, of_decide_eq_true h, rfl⟩
  | _ => exact decodePlain_eq_some_iff.2 ⟨rfl, rfl, rfl⟩

/-- A word spells an op exactly where it is the op's word and the op is well-formed. -/
theorem decodeRow_eq_some_iff {p : Params} {w : Word} {i : Instr} :
    decodeRow p w = some i ↔ encode i = w ∧ i.wellFormed p = true := by
  constructor
  · intro h
    exact ⟨encode_eq_iff.2 (fields_of_decodeRow h).1, (fields_of_decodeRow h).2⟩
  · rintro ⟨rfl, h⟩
    exact decodeRow_encode h

theorem decode_eq_ok_iff {p : Params} {port : Port} {w : Word} {i : Instr} :
    decode p port w = .ok i ↔ encode i = w ∧ i.wellFormed p = true ∧ i.port = port := by
  rw [← and_assoc, ← decodeRow_eq_some_iff, decode]
  cases decodeRow p w with
  | none => simp
  | some j =>
    by_cases hport : j.port = port
    · simp only [if_pos hport, Except.ok.injEq, Option.some.injEq]
      exact ⟨fun h => ⟨h, h ▸ hport⟩, And.left⟩
    · simp only [if_neg hport, reduceCtorEq, Option.some.injEq, false_iff]
      exact fun h => hport (h.1 ▸ h.2)

theorem decodeRow_of_decode {p : Params} {port : Port} {w : Word} {i : Instr} (h : decode p port w = .ok i) :
    decodeRow p w = some i := by
  obtain ⟨henc, hwf, -⟩ := decode_eq_ok_iff.1 h
  exact decodeRow_eq_some_iff.2 ⟨henc, hwf⟩

theorem decode_of_decodeRow_none {p : Params} {w : Word} (port : Port) (h : decodeRow p w = none) :
    decode p port w = .error .reserved := by
  simp only [decode, h]

theorem decode_of_port_ne {p : Params} {port : Port} {w : Word} {i : Instr} (h : decodeRow p w = some i)
    (hport : i.port ≠ port) : decode p port w = .error .wrongPort := by
  simp only [decode, h, if_neg hport]

/-- Settles O1: `decodeRow_encode` at the op's own port. It needs no legal parameters. -/
theorem decodeUndoesEncode : Obligations.DecodeUndoesEncode :=
  fun _ _ _ h => decode_eq_ok_iff.2 ⟨rfl, h, rfl⟩

/-- Settles O2: the fields of a word that decodes are those of the op, and they are the whole word. -/
theorem encodeUndoesDecode : Obligations.EncodeUndoesDecode :=
  fun _ _ _ _ h => decode_eq_ok_iff.1 h

/-- Settles O4: each op against its port. -/
theorem wPortOpsAreTheFive : Obligations.WPortOpsAreTheFive := by
  intro i
  cases i <;> simp [Instr.port]

/-- Settles O7: eleven closed words, each decoded. -/
theorem vectorWordsDecode : Obligations.VectorWordsDecode := by
  refine ⟨?_, ?_, ?_, ?_, ?_, ?_, ?_, ?_, ?_, ?_, ?_⟩ <;> decide

end Sys2Proof
end

section
/-! PROOFS. The operands and the reserved space, from the form of an op's word: whether `sel` is a channel and how
many bits of `data` are used (30_encoding.md R91, R94, R99). -/
namespace Sys2Proof

/-- Is the op's `sel` field a channel? -/
def Instr.takesChannel : Instr → Bool
  | .pwmSet _ _ => true
  | .pwmGet _ => true
  | _ => false

/-- How many of the bits `data[k-1:0]` the op uses. -/
def Instr.dataWidth (p : Params) : Instr → Nat
  | .fifoPush _ => 8
  | .pwmSet _ _ => p.pwmW
  | .relaySet _ => 1
  | .tonePitch _ => p.pitchW
  | _ => 0

/-- What an op with that use of `sel` may have there: a channel, or 0. -/
def SelFits (channel : Bool) (sel : Byte) : Prop := if channel then sel.toNat < 3 else sel = 0#8

theorem Channel.sel_toNat_lt (ch : Channel) : ch.sel.toNat < 3 := by cases ch <;> decide

theorem exists_channel_sel {sel : Byte} (h : sel.toNat < 3) : ∃ ch : Channel, ch.sel = sel := by
  obtain rfl | rfl | rfl : sel = 0#8 ∨ sel = 1#8 ∨ sel = 2#8 := by bv_omega
  exacts [⟨.ch0, rfl⟩, ⟨.ch1, rfl⟩, ⟨.ch2, rfl⟩]

theorem Instr.selFits (i : Instr) : SelFits i.takesChannel i.selField := by
  cases i with
  | pwmSet ch l => exact ch.sel_toNat_lt
  | pwmGet ch => exact ch.sel_toNat_lt
  | _ => rfl

theorem Instr.dataField_lt {p : Params} {i : Instr} (h : i.wellFormed p = true) :
    i.dataField.toNat < 2 ^ i.dataWidth p := by
  cases i with
  | fifoPush b => exact (eq_setWidth_byte_iff.1 rfl).1
  | pwmSet ch l => exact of_decide_eq_true h
  | relaySet u => exact (eq_setWidth_bit_iff.1 rfl).1
  | tonePitch q => exact of_decide_eq_true h
  | _ => exact Nat.zero_lt_one

/-! ### Operands as slices of the word (30_encoding.md R94) -/

theorem dataOf_toNat (w : Word) : (dataOf w).toNat = w.toNat % 2 ^ 16 := by
  rw [dataOf, BitVec.extractLsb'_toNat, Nat.shiftRight_zero]

theorem selOf_toNat (w : Word) : (selOf w).toNat = w.toNat / 2 ^ 16 % 2 ^ 8 := by
  rw [selOf, BitVec.extractLsb'_toNat, Nat.shiftRight_eq_div_pow]

/-- The operand in `data` is the bits that the op uses, as an unsigned number. -/
theorem dataField_toNat_of_decodeRow {p : Params} {w : Word} {i : Instr} (h : decodeRow p w = some i)
    (hwidth : i.dataWidth p ≤ 16) : i.dataField.toNat = w.toNat % 2 ^ i.dataWidth p := by
  obtain ⟨⟨-, -, hdata⟩, hwf⟩ := fields_of_decodeRow h
  rw [← Nat.mod_eq_of_lt (Instr.dataField_lt hwf), ← hdata, dataOf_toNat,
    Nat.mod_mod_of_dvd _ (Nat.pow_dvd_pow 2 hwidth)]

/-- Settles O5: each operand is the op's `data` or `sel` field, which is a slice of the word. -/
theorem operandsAreUnsignedSlices : Obligations.OperandsAreUnsignedSlices := by
  intro p port w i hl h
  have hrow := decodeRow_of_decode h
  have hdata := dataField_toNat_of_decodeRow hrow
  have hsel : i.selField.toNat = w.toNat / 2 ^ 16 % 2 ^ 8 := by
    rw [← (fields_of_decodeRow hrow).1.2.1, selOf_toNat]
  obtain ⟨-, -, -, -, -, hpwm, -, hpitch, -⟩ := hl
  refine ⟨?_, ?_, ?_, ?_, ?_⟩
  · rintro b rfl
    have hb : b.toNat = (b.setWidth 16).toNat := (BitVec.toNat_setWidth_of_le (by decide)).symm
    exact hb.trans (hdata (Nat.le_of_ble_eq_true rfl))
  · rintro ch l rfl
    exact ⟨hdata hpwm, hsel⟩
  · rintro ch rfl
    exact hsel
  · rintro u rfl
    have hu : u.toNat = ((BitVec.ofBool u).setWidth 16).toNat := by cases u <;> rfl
    exact hu.trans (hdata (Nat.le_of_ble_eq_true rfl))
  · rintro q rfl
    exact hdata hpitch

/-! ### The reserved space (30_encoding.md R99) -/

/-- Settles O6: the fields of a spelled op meet none of the clauses. -/
theorem reservedWordsAreRefused : Obligations.ReservedWordsAreRefused := by
  intro p port op sel data h
  refine decode_of_decodeRow_none port (Option.eq_none_iff_forall_ne_some.2 fun i hi => ?_)
  obtain ⟨hfields, hwf⟩ := fields_of_decodeRow hi
  simp only [opcodeOf_makeWord, selOf_makeWord, dataOf_makeWord] at hfields
  obtain ⟨rfl, rfl, rfl⟩ := hfields
  cases i with
  | fifoPush b =>
    simp [Instr.opcode, Instr.selField, Instr.dataField] at h
    omega
  | pwmSet ch l =>
    have hch := ch.sel_toNat_lt
    have hfit : l.toNat < 2 ^ p.pwmW := of_decide_eq_true hwf
    simp [Instr.opcode, Instr.selField, Instr.dataField] at h
    omega
  | pwmGet ch =>
    have hch := ch.sel_toNat_lt
    simp [Instr.opcode, Instr.selField, Instr.dataField] at h
    omega
  | relaySet u => cases u <;> simp [Instr.opcode, Instr.selField, Instr.dataField] at h
  | tonePitch q =>
    have hfit : q.toNat < 2 ^ p.pitchW := of_decide_eq_true hwf
    simp [Instr.opcode, Instr.selField, Instr.dataField] at h
    omega
  | _ => simp [Instr.opcode, Instr.selField, Instr.dataField] at h

end Sys2Proof
end

section
/-! PROOFS. The decoder is the lookup in the opcode map (30_encoding.md R96, R98): the rows are those of the ops,
and an op's row hits exactly the words with that op's opcode, use of `sel` and width of `data`. -/
namespace Sys2Proof

/-! ### What an op's row hits -/

/-- The row of the opcode map that an op belongs to. -/
def Instr.row (p : Params) (i : Instr) : OpRow where
  mnemonic := i.mnemonic
  port := i.port
  bits := makeWord i.opcode 0#8 0#16
  mask := makeWord 0xFF#8 (if i.takesChannel then 0xFC#8 else 0xFF#8) (~~~ BitVec.ofNat 16 (2 ^ i.dataWidth p - 1))
  channel := i.takesChannel

theorem makeWord_and (a a' b b' : Byte) (d d' : Half) :
    makeWord a b d &&& makeWord a' b' d' = makeWord (a &&& a') (b &&& b') (d &&& d') :=
  BitVec.and_append.trans (congrArg (· ++ (d &&& d')) BitVec.and_append)

theorem makeWord_inj {a a' b b' : Byte} {d d' : Half} :
    makeWord a b d = makeWord a' b' d' ↔ a = a' ∧ b = b' ∧ d = d' := by
  constructor
  · intro h
    exact ⟨by simpa using congrArg opcodeOf h, by simpa using congrArg selOf h, by simpa using congrArg dataOf h⟩
  · rintro ⟨rfl, rfl, rfl⟩
    rfl

theorem getLsbD_ofNat_two_pow_sub_one (n k i : Nat) :
    (BitVec.ofNat n (2 ^ k - 1)).getLsbD i = (decide (i < n) && decide (i < k)) := by
  rw [BitVec.getLsbD_ofNat, Nat.testBit_two_pow_sub_one]

/-- A must-be-zero mask over `data[15:k]` is missed exactly by the numbers of `k` bits. -/
theorem and_highMask_eq_zero_iff {d : Half} {k : Nat} :
    d &&& ~~~ BitVec.ofNat 16 (2 ^ k - 1) = 0#16 ↔ d.toNat < 2 ^ k := by
  constructor
  · refine fun h => Nat.lt_pow_two_of_testBit _ fun i hi => ?_
    have hbit := congrArg (BitVec.getLsbD · i) h
    show d.getLsbD i = false
    by_cases h16 : i < 16
    · simpa only [BitVec.getLsbD_and, BitVec.getLsbD_not, getLsbD_ofNat_two_pow_sub_one, h16, hi.not_gt, decide_true,
        decide_false, Bool.and_false, Bool.not_false, Bool.and_true, BitVec.getLsbD_zero] using hbit
    · exact BitVec.getLsbD_of_ge _ _ (by omega)
  · refine fun h => BitVec.eq_of_getLsbD_eq fun i hi => ?_
    by_cases hk : i < k
    · simp [getLsbD_ofNat_two_pow_sub_one, hi, hk]
    · have hzero : d.getLsbD i = false :=
        Nat.testBit_lt_two_pow (h.trans_le (Nat.pow_le_pow_right (by decide) (by omega)))
      simp [hzero]

/-- R96's mask of `sel` and its constraint `sel[1:0] != 3` leave the three channels. -/
theorem sel_toNat_lt_three_iff : ∀ sel : Byte,
    sel.toNat < 3 ↔ sel &&& 0xFC#8 = 0#8 ∧ sel.extractLsb' 0 2 ≠ 3#2 := by
  decide

theorem selOf_low_bits (w : Word) : (selOf w).extractLsb' 0 2 = w.extractLsb' 16 2 := by
  refine BitVec.eq_of_getLsbD_eq fun i hi => ?_
  simp [selOf, hi, show i < 8 by omega]

theorem Instr.row_hits_iff {p : Params} {i : Instr} {w : Word} : (i.row p).hits w = true ↔
    opcodeOf w = i.opcode ∧ SelFits i.takesChannel (selOf w) ∧ (dataOf w).toNat < 2 ^ i.dataWidth p := by
  have hmask : w &&& (i.row p).mask = (i.row p).bits ↔
      opcodeOf w = i.opcode ∧ selOf w &&& (if i.takesChannel then 0xFC#8 else 0xFF#8) = 0#8 ∧
        (dataOf w).toNat < 2 ^ i.dataWidth p := by
    have hop : opcodeOf w &&& 0xFF#8 = opcodeOf w := BitVec.and_allOnes
    conv_lhs => rw [← makeWord_fields w]
    rw [Instr.row, makeWord_and, makeWord_inj, and_highMask_eq_zero_iff, hop]
  rw [OpRow.hits, Bool.and_eq_true, decide_eq_true_iff, hmask, ← selOf_low_bits]
  unfold Instr.row SelFits
  cases i.takesChannel
  · have hsel : selOf w &&& 0xFF#8 = selOf w := BitVec.and_allOnes
    simp [hsel]
  · simp [sel_toNat_lt_three_iff]
    tauto

/-! ### The rows of the map are those of the ops -/

/-- The `data` part of R96's general masks. -/
theorem highMask_eq (k : Nat) :
    0x0000FFFF#32 &&& ~~~ dataMask k = makeWord 0#8 0#8 (~~~ BitVec.ofNat 16 (2 ^ k - 1)) := by
  have hlow : 0x0000FFFF#32 = dataMask 16 := by decide
  refine BitVec.eq_of_getLsbD_eq fun i hi => ?_
  simp only [hlow, makeWord, dataMask, BitVec.getLsbD_and, BitVec.getLsbD_not, BitVec.getLsbD_append,
    getLsbD_ofNat_two_pow_sub_one]
  by_cases h16 : i < 16
  · simp [h16, hi]
  · simp [h16]

theorem makeWord_or_data (a b : Byte) (d : Half) : makeWord a b 0#16 ||| makeWord 0#8 0#8 d = makeWord a b d := by
  have hfields : makeWord a b 0#16 ||| makeWord 0#8 0#8 d = makeWord (a ||| 0#8) (b ||| 0#8) (0#16 ||| d) :=
    BitVec.or_append.trans (congrArg (· ++ (0#16 ||| d)) BitVec.or_append)
  rw [hfields, BitVec.or_zero, BitVec.or_zero, BitVec.zero_or]

theorem pwmSetMask_eq (p : Params) :
    pwmSetMask p = makeWord 0xFF#8 0xFC#8 (~~~ BitVec.ofNat 16 (2 ^ p.pwmW - 1)) := by
  have hhead : 0xFFFC0000#32 = makeWord 0xFF#8 0xFC#8 0#16 := by decide
  rw [pwmSetMask, highMask_eq, hhead, makeWord_or_data]

theorem pitchMask_eq (p : Params) :
    pitchMask p = makeWord 0xFF#8 0xFF#8 (~~~ BitVec.ofNat 16 (2 ^ p.pitchW - 1)) := by
  have hhead : 0xFFFF0000#32 = makeWord 0xFF#8 0xFF#8 0#16 := by decide
  rw [pitchMask, highMask_eq, hhead, makeWord_or_data]

/-- One op of each row of the opcode map, in the map's order. -/
def rowSamples : List Instr :=
  [.fifoPush 0, .fifoPop, .fifoEmpty, .fifoFull, .fifoRcount, .fifoWcount, .fifoOvfcnt, .fifoOvfclr, .fifoUnflag,
    .fifoUnfclr, .pwmSet .ch0 0, .pwmGet .ch0, .pwmPower, .relaySet false, .relayGet, .tonePitch 0, .toneGetpitch,
    .toneInit, .toneOn, .toneOff, .toneStatus]

theorem opRows_eq_map (p : Params) : opRows p = rowSamples.map (Instr.row p) := by
  simp only [opRows, pwmSetMask_eq, pitchMask_eq, rowSamples, List.map, List.cons_append, List.nil_append]
  simp only [Instr.row, Instr.mnemonic, Instr.port, Instr.opcode, Instr.takesChannel, Instr.dataWidth, if_true,
    Bool.false_eq_true, if_false, List.cons.injEq, OpRow.mk.injEq, true_and, and_true]
  decide

/-- An op's row depends on no operand. -/
theorem exists_sample_of_row (p : Params) (i : Instr) : ∃ j ∈ rowSamples, j.row p = i.row p := by
  cases i with
  | fifoPush b => exact ⟨.fifoPush 0, by simp [rowSamples], rfl⟩
  | pwmSet ch l => exact ⟨.pwmSet .ch0 0, by simp [rowSamples], rfl⟩
  | pwmGet ch => exact ⟨.pwmGet .ch0, by simp [rowSamples], rfl⟩
  | relaySet u => exact ⟨.relaySet false, by simp [rowSamples], rfl⟩
  | tonePitch q => exact ⟨.tonePitch 0, by simp [rowSamples], rfl⟩
  | _ => exact ⟨_, by simp [rowSamples], rfl⟩

theorem mem_opRows_iff {p : Params} {row : OpRow} : row ∈ opRows p ↔ ∃ i : Instr, i.row p = row := by
  rw [opRows_eq_map, List.mem_map]
  constructor
  · rintro ⟨i, -, hi⟩
    exact ⟨i, hi⟩
  · rintro ⟨i, rfl⟩
    exact exists_sample_of_row p i

/-! ### Hits and the word's op -/

/-- Fields that an op's row admits are those of an op of that row. -/
theorem exists_decodeRow_of_fits {p : Params} {w : Word} {i : Instr} (hop : opcodeOf w = i.opcode)
    (hsel : SelFits i.takesChannel (selOf w)) (hdata : (dataOf w).toNat < 2 ^ i.dataWidth p) :
    ∃ j, decodeRow p w = some j ∧ j.row p = i.row p := by
  simp only [decodeRow_eq_some_iff, encode_eq_iff]
  cases i with
  | fifoPush b =>
    exact ⟨.fifoPush ((dataOf w).setWidth 8), ⟨⟨hop, hsel, eq_setWidth_byte_iff.2 ⟨hdata, rfl⟩⟩, rfl⟩, rfl⟩
  | pwmSet ch l =>
    obtain ⟨ch', hch⟩ := exists_channel_sel hsel
    exact ⟨.pwmSet ch' (dataOf w), ⟨⟨hop, hch.symm, rfl⟩, decide_eq_true hdata⟩, rfl⟩
  | pwmGet ch =>
    obtain ⟨ch', hch⟩ := exists_channel_sel hsel
    exact ⟨.pwmGet ch', ⟨⟨hop, hch.symm, BitVec.eq_of_toNat_eq (Nat.lt_one_iff.1 hdata)⟩, rfl⟩, rfl⟩
  | relaySet u =>
    exact ⟨.relaySet ((dataOf w).getLsbD 0), ⟨⟨hop, hsel, eq_setWidth_bit_iff.2 ⟨hdata, rfl⟩⟩, rfl⟩, rfl⟩
  | tonePitch q => exact ⟨.tonePitch (dataOf w), ⟨⟨hop, hsel, rfl⟩, decide_eq_true hdata⟩, rfl⟩
  | _ => exact ⟨_, ⟨⟨hop, hsel, BitVec.eq_of_toNat_eq (Nat.lt_one_iff.1 hdata)⟩, rfl⟩, rfl⟩

theorem row_eq_of_hits {p : Params} {w : Word} {row : OpRow} (hmem : row ∈ opRows p) (h : row.hits w = true) :
    ∃ i, decodeRow p w = some i ∧ i.row p = row := by
  obtain ⟨i, rfl⟩ := mem_opRows_iff.1 hmem
  obtain ⟨hop, hsel, hdata⟩ := Instr.row_hits_iff.1 h
  exact exists_decodeRow_of_fits hop hsel hdata

theorem row_hits_of_decodeRow {p : Params} {w : Word} {i : Instr} (h : decodeRow p w = some i) :
    (i.row p).hits w = true := by
  obtain ⟨⟨hop, hsel, hdata⟩, hwf⟩ := fields_of_decodeRow h
  exact Instr.row_hits_iff.2 ⟨hop, hsel ▸ i.selFits, hdata ▸ Instr.dataField_lt hwf⟩

/-- Settles O3: a row that hits is the row of the op the word spells, so there is one, and a word that spells an op
is hit by that op's row. -/
theorem decoderFollowsOpcodeMap : Obligations.DecoderFollowsOpcodeMap := by
  intro p port w _
  refine ⟨fun r₁ h₁ r₂ h₂ hit₁ hit₂ => ?_, fun row hmem hit hport => ?_, fun row hmem hit hport => ?_,
    fun hnone => ?_⟩
  · obtain ⟨i, hi, rfl⟩ := row_eq_of_hits h₁ hit₁
    obtain ⟨j, hj, rfl⟩ := row_eq_of_hits h₂ hit₂
    rw [Option.some.inj (hi.symm.trans hj)]
  · obtain ⟨i, hi, rfl⟩ := row_eq_of_hits hmem hit
    obtain ⟨henc, hwf⟩ := decodeRow_eq_some_iff.1 hi
    exact ⟨i, decode_eq_ok_iff.2 ⟨henc, hwf, hport⟩, rfl⟩
  · obtain ⟨i, hi, rfl⟩ := row_eq_of_hits hmem hit
    exact decode_of_port_ne hi hport
  · refine decode_of_decodeRow_none port (Option.eq_none_iff_forall_ne_some.2 fun i hi => ?_)
    exact absurd (row_hits_of_decodeRow hi) (by simp [hnone _ (mem_opRows_iff.2 ⟨i, rfl⟩)])

end Sys2Proof
end

section
/-! PROOFS. The assembler emits words of well-formed ops only (30_encoding.md R102). -/
namespace Sys2Proof.Machine

theorem ofNat_half_toNat_lt {n k : Nat} (h : n < k) : (BitVec.ofNat 16 n).toNat < k := by
  rw [BitVec.toNat_ofNat]
  exact (Nat.mod_le _ _).trans_lt h

theorem maxLevel_toNat_lt (p : Params) : (maxLevel p).toNat < 2 ^ p.pwmW :=
  ofNat_half_toNat_lt (Params.pwmMax_lt p)

/-- A level operand is in range (R102): a number is at most `PWM_MAX`, and `MAX` is `PWM_MAX`. -/
theorem readLevel_toNat_lt {p : Params} {cs : List Char} {l : Half} (h : readLevel p cs = some l) :
    l.toNat < 2 ^ p.pwmW := by
  unfold readLevel at h
  split at h
  · cases h
    exact maxLevel_toNat_lt p
  · split at h
    · split at h
      · cases h
        exact ofNat_half_toNat_lt (lt_of_le_of_lt ‹_› (Params.pwmMax_lt p))
      · cases h
    · cases h

theorem readPwmSet_wellFormed {p : Params} {cs : List Char} {i : Instr} (h : readPwmSet p cs = some i) :
    i.wellFormed p = true := by
  unfold readPwmSet at h
  split at h
  · split at h
    · cases h
      exact decide_eq_true (readLevel_toNat_lt ‹_›)
    · cases h
  · cases h

theorem readBare_wellFormed {p : Params} {i j : Instr} {cs : List Char} (hi : i.wellFormed p = true)
    (h : readBare i cs = some j) : j.wellFormed p = true := by
  unfold readBare at h
  split at h
  · cases h
    exact hi
  · cases h

/-- An operand that is a channel needs no check, so the op must be well-formed whatever the channel. -/
theorem map_channel_wellFormed {p : Params} {f : Channel → Instr} {ch : Option Channel} {i : Instr}
    (hf : ∀ c, (f c).wellFormed p = true) (h : ch.map f = some i) : i.wellFormed p = true := by
  obtain ⟨c, -, rfl⟩ := Option.map_eq_some_iff.1 h
  exact hf c

/-- A number that is checked against a bound makes a well-formed op where the bound says so. -/
theorem bind_checked_wellFormed {p : Params} {bound : Nat → Prop} [DecidablePred bound] {f : Nat → Instr}
    {number : Option Nat} {i : Instr} (hf : ∀ n, bound n → (f n).wellFormed p = true)
    (h : (number.bind fun n => if bound n then some (f n) else none) = some i) : i.wellFormed p = true := by
  obtain ⟨n, -, hn⟩ := Option.bind_eq_some_iff.1 h
  split at hn
  · cases hn
    exact hf n ‹_›
  · cases hn

/-- Every operand that the assembler lets through is in range. -/
theorem readOp_wellFormed {p : Params} {m : String} {cs : List Char} {i : Instr} (h : readOp p m cs = some i) :
    i.wellFormed p = true := by
  unfold readOp at h
  split at h
  case h_1 => exact bind_checked_wellFormed (fun _ _ => rfl) h
  case h_11 => exact readPwmSet_wellFormed h
  case h_12 => exact map_channel_wellFormed (fun _ => rfl) h
  case h_14 => exact bind_checked_wellFormed (fun _ _ => rfl) h
  case h_16 =>
    exact bind_checked_wellFormed (bound := (· < 2 ^ p.pitchW)) (f := fun n => .tonePitch (BitVec.ofNat 16 n))
      (fun _ hn => decide_eq_true (ofNat_half_toNat_lt hn)) h
  case h_22 =>
    exact map_channel_wellFormed (f := pseudoPwmOn) (fun _ => decide_eq_true (Nat.two_pow_pos _)) h
  case h_23 =>
    exact map_channel_wellFormed (f := pseudoPwmOff p) (fun _ => decide_eq_true (maxLevel_toNat_lt p)) h
  case h_26 => cases h
  all_goals exact readBare_wellFormed rfl h

/-- Settles O8: the emitted word is the encoding of a well-formed op. -/
theorem assembledWordsDecode : Obligations.AssembledWordsDecode := by
  intro p line w _ h
  obtain ⟨i, hread, rfl⟩ := Option.map_eq_some_iff.1 h
  exact ⟨i, decode_eq_ok_iff.2 ⟨rfl, readOp_wellFormed hread, rfl⟩⟩

end Sys2Proof.Machine
end

section
/-! PROOFS. One cycle as its events in order (70_reset_and_hazards.md R202). -/
namespace Sys2Proof.Machine

theorem afterEvents_tickEvents (tick : Bool) (e : Event) (s : State) :
    afterEvents (tickEvents tick e) s = if tick then afterEvent e s else s := by
  cases tick <;> rfl

theorem afterEvents_tickEvents_field {α : Type} (f : State → α) {e : Event} (h : ∀ s, f (afterEvent e s) = f s)
    (tick : Bool) (s : State) : f (afterEvents (tickEvents tick e) s) = f s := by
  rw [afterEvents_tickEvents]
  split
  · exact h s
  · rfl

theorem RCycle.after_eq (op : Option Word) (pwm tone sync : Bool) (s : State) :
    RCycle.after ⟨false, op, pwm, tone, sync⟩ s =
      afterEvents (tickEvents sync .syncW2R) (afterEvents (tickEvents tone .toneTmr)
        (afterEvents (tickEvents pwm .pwmTb) (afterEvents (opEvents .r op) s))) := by
  simp only [RCycle.after, RCycle.events, Bool.false_eq_true, if_false, afterEvents_append]

theorem WCycle.after_eq (op : Option Word) (sync : Bool) (s : State) :
    WCycle.after ⟨false, op, sync⟩ s =
      afterEvents (tickEvents sync .syncR2W) (afterEvents (opEvents .w op) s) := by
  simp only [WCycle.after, WCycle.events, Bool.false_eq_true, if_false, afterEvents_append]

theorem RCycle.after_rResult (op : Option Word) (pwm tone sync : Bool) (s : State) :
    (RCycle.after ⟨false, op, pwm, tone, sync⟩ s).rResult = (afterEvents (opEvents .r op) s).rResult := by
  rw [RCycle.after_eq, afterEvents_tickEvents_field State.rResult (by simp),
    afterEvents_tickEvents_field State.rResult (by simp), afterEvents_tickEvents_field State.rResult (by simp)]

theorem WCycle.after_wResult (op : Option Word) (sync : Bool) (s : State) :
    (WCycle.after ⟨false, op, sync⟩ s).wResult = (afterEvents (opEvents .w op) s).wResult := by
  rw [WCycle.after_eq, afterEvents_tickEvents_field State.wResult (by simp)]

/-- Settles O18: the events of the cycle in order, with or without an op; the ticks and the synchroniser update
leave the result words alone. -/
theorem cycleAppliesOpThenTicks : Obligations.CycleAppliesOpThenTicks := by
  intro s op pwm tone sync
  rw [RCycle.after_eq, WCycle.after_eq]
  simp only [afterEvents_tickEvents]
  cases op with
  | none => exact ⟨⟨rfl, rfl⟩, rfl, rfl⟩
  | some w =>
    exact ⟨⟨rfl, congrArg (Option.getD · 0#32) (RCycle.after_rResult (some w) pwm tone sync s)⟩,
      rfl, congrArg (Option.getD · 0#32) (WCycle.after_wResult (some w) sync s)⟩

end Sys2Proof.Machine
end

section
/-! PROOFS. The Gray code of a pointer moved on by one (40_fifo.md R123). -/
namespace Sys2Proof.Machine

/-- The Gray code of a run of ones is the top one of the run. -/
theorem gray_two_pow_sub_one (k : Nat) : gray (2 ^ (k + 1) - 1) = 2 ^ k := by
  have hpow := pow_succ 2 k
  have hpos := Nat.two_pow_pos k
  have hshift : (2 ^ (k + 1) - 1) >>> 1 = 2 ^ k - 1 := by rw [Nat.shiftRight_eq_div_pow]; omega
  have htop : 2 ^ (k + 1) - 1 = (2 ^ k - 1) ^^^ 2 ^ k := by
    rw [xor_two_pow_of_lt (Nat.sub_lt hpos Nat.one_pos)]; omega
  rw [gray, hshift, htop, Nat.xor_comm, ← Nat.xor_assoc, Nat.xor_self, Nat.zero_xor]

/-- An even pointer moved on by one has its lowest bit set. -/
theorem addW_one_even {w c : Nat} (h : c < 2 ^ w) : addW (w + 1) (2 * c) 1 = 2 * c + 1 :=
  trunc_of_lt (by rw [pow_succ]; omega)

/-- An odd pointer moved on by one carries into the bits above the lowest. -/
theorem addW_one_odd (w c : Nat) : addW (w + 1) (2 * c + 1) 1 = 2 * addW w c 1 := by
  rw [addW, addW, trunc, trunc, pow_succ', ← Nat.mul_mod_mul_left]
  rfl

/-- An increment changes a run of low bits of the pointer: the lowest zero and the ones below it, or
every bit where the pointer wraps. -/
theorem exists_xor_addW_one {w b : Nat} (h : b < 2 ^ (w + 1)) :
    ∃ k < w + 1, b ^^^ addW (w + 1) b 1 = 2 ^ (k + 1) - 1 := by
  induction w generalizing b with
  | zero =>
    refine ⟨0, Nat.one_pos, ?_⟩
    interval_cases b <;> rfl
  | succ w ih =>
    obtain ⟨c, hb⟩ := Nat.even_or_odd' b
    have hc : c < 2 ^ (w + 1) := by rw [pow_succ] at h; omega
    obtain rfl | rfl := hb
    · have hbits := Nat.xor_bit false c true c
      refine ⟨0, Nat.succ_pos _, ?_⟩
      rw [addW_one_even hc]
      simpa using hbits
    · obtain ⟨k, hk, hrun⟩ := ih hc
      have hbits : (2 * c + 1) ^^^ 2 * addW (w + 1) c 1 = 2 * (2 ^ (k + 1) - 1) + 1 := by
        simpa [hrun] using Nat.xor_bit true c false (addW (w + 1) c 1)
      have hpos := Nat.two_pow_pos (k + 1)
      refine ⟨k + 1, Nat.succ_lt_succ hk, ?_⟩
      rw [addW_one_odd, hbits, pow_succ 2 (k + 1)]
      omega

/-- Settles O28: the increment changes a run of low bits, whose Gray code is one bit. -/
theorem grayIncrementChangesOneBit : Obligations.GrayIncrementChangesOneBit := by
  intro w b hw hb
  obtain ⟨n, rfl⟩ := Nat.exists_eq_succ_of_ne_zero hw.ne'
  obtain ⟨k, hk, hrun⟩ := exists_xor_addW_one hb
  exact ⟨k, hk, by rw [← gray_xor, hrun, gray_two_pow_sub_one]⟩

end Sys2Proof.Machine
end

section
/-! PROOFS. The FIFO ops and the synchroniser steps one by one: their words, their results and what they
leave alone (40_fifo.md R110 to R121). -/
namespace Sys2Proof.Machine

/-! ### Words -/

/-- The one word of an op is its encoding, and its own port takes it (30_encoding.md R96, R97). -/
theorem encodedAs_encode {p : Params} {i : Instr} (h : i.wellFormed p = true) :
    encodedAs p i i.port (encode i) := by
  intro q v
  rw [decode_eq_ok_iff]
  exact ⟨fun ⟨hword, _, hport⟩ => ⟨hport.symm, hword.symm⟩, fun ⟨hport, hword⟩ => ⟨hword.symm, h, hport.symm⟩⟩

/-- The word of `FIFO.PUSH b` (30_encoding.md R96). -/
theorem encode_fifoPush (b : Byte) : encode (.fifoPush b) = BitVec.ofNat 32 (0x10000000 + b.toNat) := by
  apply encode_eq_iff.2
  have hb := b.isLt
  refine ⟨?_, ?_, ?_⟩ <;> apply BitVec.eq_of_toNat_eq <;>
    simp [opcodeOf, selOf, dataOf, Instr.opcode, Instr.selField, Instr.dataField] <;> omega

theorem encodedAs_fifoPush (p : Params) (b : Byte) :
    encodedAs p (.fifoPush b) .w (BitVec.ofNat 32 (0x10000000 + b.toNat)) :=
  encode_fifoPush b ▸ encodedAs_encode (i := .fifoPush b) rfl

theorem encodedAs_fifoPop (p : Params) : encodedAs p .fifoPop .r 0x11000000#32 :=
  encodedAs_encode (i := .fifoPop) rfl

/-! ### Push and pop, by what the views say -/

theorem opEffect_fifoPush_of_room {s : State} (b : Byte) (h : s.wcount ≠ s.cfg.depth) :
    opEffect (.fifoPush b) s = (s.enqueue b).answer .w none :=
  congrArg (State.answer · .w none) (if_neg h)

theorem opEffect_fifoPush_of_full {s : State} (b : Byte) (h : s.wcount = s.cfg.depth) :
    opEffect (.fifoPush b) s = s.dropByte.answer .w none :=
  congrArg (State.answer · .w none) (if_pos h)

theorem opEffect_fifoPop_of_inView {s : State} (h : s.rcount ≠ 0) :
    opEffect .fifoPop s = s.dequeue.answer .r (some (popResult true s.headByte)) := if_neg h

theorem opEffect_fifoPop_of_empty {s : State} (h : s.rcount = 0) :
    opEffect .fifoPop s = s.underflow.answer .r (some (popResult false s.drawn)) := if_pos h

theorem Memory.byteAt_of_read {m : Memory} {i : Nat} {b : Byte} (h : m.read i = some b) : m.byteAt i = b := by
  rw [Memory.byteAt, h, Option.getD_some]

theorem bitResult_decide (q : Prop) [Decidable q] : bitResult (decide q) = if q then 1#32 else 0#32 := by
  simp only [bitResult_eq, decide_eq_true_eq]

/-! ### The statements -/

/-- Settles O11: the step is the listed event's, and each synchroniser step is one field update. -/
theorem synchroniserStepsCopyGrayPointers : Obligations.SynchroniserStepsCopyGrayPointers :=
  fun _ _ hl => ⟨step_of_pending_cons hl, step_of_pending_cons hl⟩

/-- Settles O29: the new storage is `Memory.write` at the `wbin` slot. -/
theorem pushAcceptsOrDropsNewest : Obligations.PushAcceptsOrDropsNewest := by
  intro s b hwf
  refine ⟨encodedAs_fifoPush s.cfg b, fun hroom => ?_, fun hfull => ?_⟩
  · have hread := fun a => Memory.read_write s.mem (slotOf s.cfg s.wbin) a b hwf
    refine ⟨s.mem.write (slotOf s.cfg s.wbin) b, ?_, Memory.write_wf _ _ hwf, ?_, fun a ha => ?_⟩
    · rw [exec_eq, opEffect_fifoPush_of_room b hroom]
      rfl
    · exact (hread _).trans (if_pos rfl)
    · exact (hread a).trans (if_neg ha)
  · rw [exec_eq, opEffect_fifoPush_of_full b hfull]
    rfl

/-- Settles O30: the byte is `headByte`, or the byte drawn where the view is empty. -/
theorem popTakesOldestOrUnderflows : Obligations.PopTakesOldestOrUnderflows := by
  intro s
  refine ⟨encodedAs_fifoPop s.cfg, fun hview => ⟨s.headByte, fun b => Memory.byteAt_of_read, ?_⟩,
    fun hempty => ⟨s.drawn, s.draws + 1, ?_⟩⟩
  · rw [exec_eq, opEffect_fifoPop_of_inView hview, popResult_eq]
    rfl
  · rw [exec_eq, opEffect_fifoPop_of_empty hempty, popResult_eq, if_neg Bool.false_ne_true, BitVec.zero_or]
    rfl

/-- Settles O31: each query is its answer alone; the bounds are part of the invariant. -/
theorem fifoQueriesReturnTheirValue : Obligations.FifoQueriesReturnTheirValue := by
  intro s
  refine ⟨encodedAs_encode (i := .fifoEmpty) rfl, encodedAs_encode (i := .fifoFull) rfl,
    encodedAs_encode (i := .fifoRcount) rfl, encodedAs_encode (i := .fifoWcount) rfl,
    encodedAs_encode (i := .fifoOvfcnt) rfl, encodedAs_encode (i := .fifoUnflag) rfl,
    ?_, ?_, rfl, rfl, rfl, ?_, fun h => ?_⟩
  · rw [exec_eq, opEffect, State.empty, bitResult_decide]
    rfl
  · rw [exec_eq, opEffect, State.full, bitResult_decide]
    rfl
  · rw [exec_eq, opEffect, bitResult_eq]
    rfl
  · obtain ⟨-, -, hrc, hcw, -⟩ := h.fifoOk.pointersOk
    exact ⟨hrc, hcw⟩

/-- Settles O32: each clear is one field update and no result. -/
theorem fifoClearsWriteTheirFlagOnly : Obligations.FifoClearsWriteTheirFlagOnly :=
  fun _ => ⟨encodedAs_encode (i := .fifoOvfclr) rfl, encodedAs_encode (i := .fifoUnfclr) rfl, rfl, rfl⟩

end Sys2Proof.Machine
end

section
/-! PROOFS. Polled flags: what a side's view allows stays allowed until that side uses it (40_fifo.md R112,
R113). -/
namespace Sys2Proof.Machine

/-! ### Only a pop returns a byte and only a push has one accepted -/

theorem returnedBy_eq_nil {e : Event} {s : State} (h : ¬ spells e s .fifoPop) : returnedBy e s = [] := by
  cases e with
  | op port w =>
    cases hd : decode s.cfg port w with
    | ok i =>
      rw [returnedBy_op_ok hd]
      cases i with
      | fifoPop => exact absurd ⟨port, w, rfl, hd⟩ h
      | _ => rfl
    | error d => simp only [returnedBy, hd]
  | _ => rfl

theorem acceptedBy_eq_nil {e : Event} {s : State} (h : ∀ b, ¬ spells e s (.fifoPush b)) :
    acceptedBy e s = [] := by
  cases e with
  | op port w =>
    cases hd : decode s.cfg port w with
    | ok i =>
      rw [acceptedBy_op_ok hd]
      cases i with
      | fifoPush b => exact absurd ⟨port, w, rfl, hd⟩ (h b)
      | _ => rfl
    | error d => simp only [acceptedBy, hd]
  | _ => rfl

theorem returnedBy_fifoPop_of_inView {s : State} (h : s.rcount ≠ 0) :
    returnedBy (.op .r 0x11000000#32) s = [s.headByte] :=
  (returnedBy_op_ok ((encodedAs_fifoPop s.cfg .r _).2 ⟨rfl, rfl⟩)).trans (if_neg h)

theorem acceptedBy_fifoPush_of_room {s : State} (b : Byte) (h : s.wcount ≠ s.cfg.depth) :
    acceptedBy (.op .w (BitVec.ofNat 32 (0x10000000 + b.toNat))) s = [b] :=
  (acceptedBy_op_ok ((encodedAs_fifoPush s.cfg b .w _).2 ⟨rfl, rfl⟩)).trans (if_neg (s.full_iff.not.2 h))

/-! ### The views along a list of events -/

/-- Without a pop or a reset, nothing leaves the consumer's view. -/
theorem State.FifoOk.rcount_le_afterEvents {s : State} (h : s.FifoOk) {es : List Event} (hreset : .reset ∉ es)
    (hpop : ∀ e ∈ es, ¬ spells e s .fifoPop) : s.rcount ≤ (afterEvents es s).rcount := by
  induction es generalizing s with
  | nil => exact le_rfl
  | cons e es ih =>
    obtain ⟨he, hes⟩ := List.ne_and_not_mem_of_not_mem_cons hreset
    obtain ⟨hpope, hpopes⟩ := List.forall_mem_cons.1 hpop
    have hstep := h.rcount_le_afterEvent he.symm
    rw [returnedBy_eq_nil hpope] at hstep
    exact hstep.trans (ih (h.afterEvent e) hes fun f hf =>
      (spells_congr (Machine.afterEvent_cfg e s)).not.2 (hpopes f hf))

theorem State.resetEvent_wcount (s : State) : s.resetEvent.wcount = 0 := by
  have hpos : 0 < 2 ^ s.cfg.ptrW := Nat.two_pow_pos _
  have hbin : bin s.cfg.ptrW 0 = 0 := bin_gray _ 0 hpos
  rw [State.wcount, State.resetEvent_cfg, State.resetEvent_wbin, State.resetEvent_wqRgray, hbin, subW_self hpos]

/-- Without a push, nothing is added to the producer's view: a reset empties it. -/
theorem State.FifoOk.afterEvents_wcount_le {s : State} (h : s.FifoOk) {es : List Event}
    (hpush : ∀ e ∈ es, ∀ b, ¬ spells e s (.fifoPush b)) : (afterEvents es s).wcount ≤ s.wcount := by
  induction es generalizing s with
  | nil => exact le_rfl
  | cons e es ih =>
    obtain ⟨hpushe, hpushes⟩ := List.forall_mem_cons.1 hpush
    have hstep : (Machine.afterEvent e s).wcount ≤ s.wcount := by
      by_cases he : e = .reset
      · rw [he, afterEvent_reset, s.resetEvent_wcount]
        exact Nat.zero_le _
      · simpa [acceptedBy_eq_nil hpushe] using h.afterEvent_wcount_le he
    exact (ih (h.afterEvent e) fun f hf b =>
      (spells_congr (Machine.afterEvent_cfg e s)).not.2 (hpushes f hf b)).trans hstep

/-- Settles O37: the result 0 says that the view holds a byte, or has room, and the events leave it so. -/
theorem polledFlagsAreReliable : Obligations.PolledFlagsAreReliable := by
  intro s t es hinv
  have h := hinv.fifoOk
  constructor
  · intro ht hresult hreset hpop
    obtain rfl : s.answer .r (some (bitResult s.empty)) = t := Host.Outcome.next.inj ht
    have hview : s.rcount ≠ 0 := fun hzero => by
      rw [State.answer_r_rResult, h.empty_iff_rcount.2 hzero] at hresult
      cases hresult
    have hsame := s.sameFifo_answer .r (some (bitResult s.empty))
    have hkept := (h.congr hsame).rcount_le_afterEvents hreset fun e he =>
      (spells_congr hsame.cfg).not.2 (hpop e he)
    rw [hsame.rcount_eq] at hkept
    exact ⟨_, returnedBy_fifoPop_of_inView (by omega)⟩
  · intro ht hresult hpush b
    obtain rfl : s.answer .w (some (bitResult s.full)) = t := Host.Outcome.next.inj ht
    have hroom : s.wcount ≠ s.cfg.depth := fun hfull => by
      rw [State.answer_w_wResult, s.full_iff.2 hfull] at hresult
      cases hresult
    obtain ⟨-, -, -, -, hbound⟩ := h.pointersOk
    have hsame := s.sameFifo_answer .w (some (bitResult s.full))
    have hkept := (h.congr hsame).afterEvents_wcount_le fun e he c =>
      (spells_congr hsame.cfg).not.2 (hpush e he c)
    rw [hsame.wcount_eq] at hkept
    refine acceptedBy_fifoPush_of_room b ?_
    rw [afterEvents_cfg, hsame.cfg]
    omega

end Sys2Proof.Machine
end

section
/-! PROOFS. The PWM unit and the relay: the time base along a run of ticks and the duty of a channel over a
frame, and each op with its word, its result and what it leaves alone (41_pwm.md R140 to R149). -/
namespace Sys2Proof.Machine

/-! ### The time base along a run of ticks (41_pwm.md R149) -/

/-- A tick counts modulo `PWM_MAX`. -/
theorem State.pwmTb_eq_mod {s : State} (h : s.PwmOk) :
    s.pwmTb = { s with pwmCnt := (s.pwmCnt + 1) % s.cfg.pwmMax } := by
  rw [State.pwmTb]
  split
  case isTrue hwrap => rw [hwrap, Nat.mod_self]
  case isFalse hin => rw [Nat.mod_eq_of_lt (Nat.lt_of_le_of_ne h hin)]

/-- A run of ticks moves the time base round its frame and writes nothing else. -/
theorem afterEvents_replicate_pwmTb {s : State} (h : s.PwmOk) (k : Nat) :
    afterEvents (List.replicate k .pwmTb) s = { s with pwmCnt := (s.pwmCnt + k) % s.cfg.pwmMax } := by
  induction k generalizing s with
  | zero => rw [List.replicate_zero, afterEvents_nil, Nat.add_zero, Nat.mod_eq_of_lt h]
  | succ k ih =>
    have hnext : (s.pwmCnt + 1) % s.cfg.pwmMax < s.cfg.pwmMax := Nat.mod_lt _ (Nat.zero_lt_of_lt h)
    rw [List.replicate_succ, afterEvents_cons, afterEvent_pwmTb, State.pwmTb_eq_mod h, ih hnext]
    simp only [Nat.mod_add_mod, Nat.add_assoc, Nat.add_comm 1]

/-- A whole frame of ticks ends where it began. -/
theorem afterEvents_frame {s : State} (h : s.PwmOk) :
    afterEvents (List.replicate s.cfg.pwmMax .pwmTb) s = s := by
  rw [afterEvents_replicate_pwmTb h, Nat.add_mod_right, Nat.mod_eq_of_lt h]

/-! ### The output of a channel (41_pwm.md R140) -/

theorem State.chOut_iff {s : State} {ch : Channel} : s.chOut ch = true ↔ s.pwmCnt < s.level.get ch :=
  decide_eq_true_iff

/-- The output `k` ticks on compares the level with the slot of the frame reached. -/
theorem chOut_afterEvents_replicate_pwmTb {s : State} (h : s.PwmOk) (ch : Channel) (k : Nat) :
    (afterEvents (List.replicate k .pwmTb) s).chOut ch =
      decide ((s.pwmCnt + k) % s.cfg.pwmMax < s.level.get ch) := by
  rw [afterEvents_replicate_pwmTb h, State.chOut]

/-- The slots of a frame below a level, counted from the frame's start (41_pwm.md R143). -/
theorem count_mod_lt {l m : Nat} (h : l ≤ m) : Nat.count (fun k => k % m < l) m = l := by
  obtain ⟨d, rfl⟩ := Nat.exists_eq_add_of_le h
  have hbelow : ∀ k < l, k % (l + d) < l := fun k hk => (Nat.mod_le _ _).trans_lt hk
  have habove : ∀ k < d, ¬ (l + k) % (l + d) < l := fun k hk => by
    rw [Nat.mod_eq_of_lt (by omega)]
    omega
  rw [Nat.count_add, Nat.count_of_forall hbelow, Nat.count_of_forall_not habove, Nat.add_zero]

/-- The same number of slots from any phase: what a frame begun at `c` leaves out at its front it takes in
again at its end. -/
theorem count_add_mod_lt (c : Nat) {l m : Nat} (h : l ≤ m) :
    Nat.count (fun k => (c + k) % m < l) m = l := by
  have hfront := Nat.count_add (fun k => k % m < l) c m
  have hback := Nat.count_add (fun k => k % m < l) m c
  simp only [Nat.add_mod_left, count_mod_lt h] at hback
  rw [Nat.add_comm m c] at hback
  omega

/-- Settles O43: the ticks run the counter once through every residue, and `level` of them lie below it. -/
theorem channelDutyOverAFrame : Obligations.ChannelDutyOverAFrame := by
  intro s ch hinv
  obtain ⟨-, -, -, -, hlevel, hcnt, -⟩ := State.inv_iff.1 hinv
  have hmax : s.level.get ch ≤ s.cfg.pwmMax := Nat.le_sub_one_of_lt (hlevel ch)
  have hout := chOut_afterEvents_replicate_pwmTb hcnt ch
  refine ⟨State.chOut_iff, ?_, fun k hzero => ?_, fun k htop => ?_, afterEvents_frame hcnt⟩
  · simp only [hout]
    exact count_add_mod_lt s.pwmCnt hmax
  · rw [hout, hzero]
    exact decide_eq_false (Nat.not_lt_zero _)
  · rw [hout, htop]
    exact decide_eq_true (Nat.mod_lt _ (Nat.zero_lt_of_lt hcnt))

/-- Settles O12: the step is the listed tick, which keeps the bound that the time base has. -/
theorem pwmTickAdvancesTimeBase : Obligations.PwmTickAdvancesTimeBase := by
  intro s rest hl hp
  have hstep := step_of_pending_cons hl hp
  refine ⟨hstep, fun t ht hcnt => ?_⟩
  obtain rfl : State.pwmTb { s with pending := rest } = t := Host.Outcome.next.inj (hstep.symm.trans ht)
  exact afterEvent_pwmOk (s := { s with pending := rest }) .pwmTb hl hcnt

/-! ### Words -/

/-- The fields of a word side by side as one number (30_encoding.md R90). -/
theorem makeWord_eq_ofNat (a b : Byte) (d : Half) :
    makeWord a b d = BitVec.ofNat 32 (0x1000000 * a.toNat + 0x10000 * b.toNat + d.toNat) := by
  have ha := a.isLt
  have hb := b.isLt
  have hd := d.isLt
  apply BitVec.eq_of_toNat_eq
  rw [makeWord, BitVec.toNat_append, BitVec.toNat_append, BitVec.toNat_ofNat,
    ← Nat.shiftLeft_add_eq_or_of_lt hd, ← Nat.shiftLeft_add_eq_or_of_lt hb, Nat.shiftLeft_eq, Nat.shiftLeft_eq]
  omega

/-- The word of `PWM.SET ch, l` (30_encoding.md R96). -/
theorem encode_pwmSet (ch : Channel) (l : Half) :
    encode (.pwmSet ch l) = BitVec.ofNat 32 (0x20000000 + 0x10000 * ch.sel.toNat + l.toNat) :=
  makeWord_eq_ofNat 0x20#8 ch.sel l

theorem decode_eq_pwmSet_iff {p : Params} {q : Port} {w : Word} {ch : Channel} {l : Half} :
    decode p q w = .ok (.pwmSet ch l) ↔ q = .r ∧ l.toNat < 2 ^ p.pwmW ∧
      w = BitVec.ofNat 32 (0x20000000 + 0x10000 * ch.sel.toNat + l.toNat) := by
  rw [decode_eq_ok_iff, encode_pwmSet, Instr.wellFormed, decide_eq_true_iff]
  exact ⟨fun ⟨hword, hfit, hport⟩ => ⟨hport.symm, hfit, hword.symm⟩,
    fun ⟨hport, hfit, hword⟩ => ⟨hword.symm, hfit, hport.symm⟩⟩

/-- The word of `RELAY.SET open` (30_encoding.md R96). -/
theorem encode_relaySet (u : Bool) : encode (.relaySet u) = BitVec.ofNat 32 (0x23000000 + u.toNat) := by
  cases u <;> rfl

theorem encodedAs_relaySet (p : Params) (u : Bool) :
    encodedAs p (.relaySet u) .r (BitVec.ofNat 32 (0x23000000 + u.toNat)) :=
  encode_relaySet u ▸ encodedAs_encode (i := .relaySet u) rfl

/-! ### The ops one by one -/

/-- Settles O38: the new levels are `Levels.set` at the channel, which the output reads at once. -/
theorem pwmSetWritesOneLevel : Obligations.PwmSetWritesOneLevel := by
  intro s ch l
  have hget := fun c => Levels.get_set s.level ch c (levelOperand s.cfg l)
  have hself := (hget ch).trans (if_pos rfl)
  refine ⟨fun _ _ => decode_eq_pwmSet_iff, s.level.set ch (levelOperand s.cfg l), rfl, hself,
    fun c hc => (hget c).trans (if_neg hc), ?_⟩
  rw [State.chOut, hself, levelOperand, trunc]

/-- Settles O39: each readback is its answer alone. -/
theorem pwmAndRelayReadbacks : Obligations.PwmAndRelayReadbacks := by
  intro s
  refine ⟨encodedAs_encode (i := .pwmGet .ch0) rfl, encodedAs_encode (i := .pwmGet .ch1) rfl,
    encodedAs_encode (i := .pwmGet .ch2) rfl, encodedAs_encode (i := .relayGet) rfl, rfl, rfl, rfl, ?_⟩
  rw [exec_eq, opEffect, bitResult_eq]
  rfl

/-- Settles O40: power mode is one update of the levels and no result. -/
theorem powerModeSetsIdleLevels : Obligations.PowerModeSetsIdleLevels :=
  fun _ => ⟨encodedAs_encode (i := .pwmPower) rfl, rfl⟩

/-- Settles O41: the line is defined as the register inverted, and the op is one update of the register. -/
theorem relaySetDrivesTheLine : Obligations.RelaySetDrivesTheLine :=
  fun s u => ⟨rfl, encodedAs_relaySet s.cfg u, rfl, rfl⟩

end Sys2Proof.Machine
end

section
/-! PROOFS. The tone unit: the effective pitch, the tick and the half-period it makes, and each op with its
word, its result and what it leaves alone (42_tone.md R160 to R169). -/
namespace Sys2Proof.Machine

/-! ### The effective pitch (42_tone.md R162) -/

theorem State.effPitch_eq (s : State) :
    s.effPitch = if s.cfg.pitchMode = .latch then s.pact else s.pitch := by
  rw [State.effPitch]
  cases s.cfg.pitchMode <;> rfl

theorem State.effPitch_of_latch {s : State} (h : s.cfg.pitchMode = .latch) : s.effPitch = s.pact :=
  s.effPitch_eq.trans (if_pos h)

theorem State.effPitch_of_live {s : State} (h : s.cfg.pitchMode = .live) : s.effPitch = s.pitch :=
  s.effPitch_eq.trans (if_neg (by rw [h]; decide))

/-! ### One tick (42_tone.md R169) -/

theorem State.toneTmr_of_disarmed {s : State} (h : s.armed = false) : s.toneTmr = s :=
  if_neg (ne_true_of_eq_false h)

section
variable {s : State} (harmed : s.armed = true)
include harmed

/-- The tick that reaches the effective pitch toggles the drive line. -/
theorem State.toneTmr_of_effPitch_le (h : s.effPitch ≤ s.tcnt + 1) :
    s.toneTmr = { s with drive := !s.drive, tcnt := 0 } :=
  (if_pos harmed).trans (if_pos h)

/-- A tick below the effective pitch counts. -/
theorem State.toneTmr_of_lt_effPitch (h : s.tcnt + 1 < s.effPitch) :
    s.toneTmr = { s with tcnt := s.tcnt + 1 } :=
  (if_pos harmed).trans (if_neg (Nat.not_le.2 h))

/-! ### A run of ticks (42_tone.md R161) -/

variable (hstart : s.tcnt = 0)
include hstart

/-- Within the half-period the ticks only count. -/
theorem afterEvents_replicate_toneTmr {k : Nat} (hk : k < max s.effPitch 1) :
    afterEvents (List.replicate k .toneTmr) s = { s with tcnt := k } := by
  induction k with
  | zero => rw [List.replicate_zero, afterEvents_nil, ← hstart]
  | succ k ih =>
    have hbelow : k + 1 < s.effPitch := by omega
    rw [List.replicate_succ', afterEvents_append, ih (Nat.lt_of_succ_lt hk), afterEvents_cons, afterEvents_nil,
      afterEvent_toneTmr]
    exact State.toneTmr_of_lt_effPitch (s := { s with tcnt := k }) harmed hbelow

/-- The last tick of the half-period toggles the drive line. -/
theorem afterEvents_halfPeriod :
    afterEvents (List.replicate (max s.effPitch 1) .toneTmr) s = { s with drive := !s.drive } := by
  obtain ⟨n, hn⟩ : ∃ n, max s.effPitch 1 = n + 1 := Nat.exists_eq_add_of_le' (Nat.le_max_right _ _)
  have hreached : s.effPitch ≤ n + 1 := hn ▸ Nat.le_max_left _ _
  have htoggle := State.toneTmr_of_effPitch_le (s := { s with tcnt := n }) harmed hreached
  rw [hn, List.replicate_succ', afterEvents_append,
    afterEvents_replicate_toneTmr harmed hstart (hn ▸ Nat.lt_succ_self n), afterEvents_cons, afterEvents_nil,
    afterEvent_toneTmr, htoggle, ← hstart]

/-- Two half-periods are a whole period of the wave. -/
theorem afterEvents_period :
    afterEvents (List.replicate (2 * max s.effPitch 1) .toneTmr) s = s := by
  have hsecond := afterEvents_halfPeriod (s := { s with drive := !s.drive }) harmed hstart
  rw [Nat.two_mul, List.replicate_add, afterEvents_append, afterEvents_halfPeriod harmed hstart]
  exact hsecond.trans (by rw [Bool.not_not])

end

/-- Settles O48: the ticks count up to the half-period, whose last tick toggles. -/
theorem toneHalfPeriod : Obligations.ToneHalfPeriod :=
  fun _ harmed hstart => ⟨fun _ => afterEvents_replicate_toneTmr harmed hstart,
    afterEvents_halfPeriod harmed hstart, afterEvents_period harmed hstart⟩

/-- Settles O13: the step is the listed tick, and the tick keeps the tone unit's part of the invariant. -/
theorem toneTickCountsAndToggles : Obligations.ToneTickCountsAndToggles := by
  intro s rest P hl hp hP
  obtain rfl : P = s.effPitch := hP.trans s.effPitch_eq.symm
  have hstep : step s = .next { s.toneTmr with pending := rest } :=
    (step_of_pending_cons hl hp).trans (congrArg Host.Outcome.next (afterEvent_pending .toneTmr s rest))
  refine ⟨fun hoff => ?_, fun harmed hreached => ?_, fun harmed hbelow => ?_, fun hinv t ht => ?_⟩
  · rw [hstep, State.toneTmr_of_disarmed hoff]
  · rw [hstep, State.toneTmr_of_effPitch_le harmed hreached]
  · rw [hstep, State.toneTmr_of_lt_effPitch harmed hbelow]
  · obtain rfl : { s.toneTmr with pending := rest } = t := Host.Outcome.next.inj (hstep.symm.trans ht)
    obtain ⟨-, -, -, -, -, -, htone⟩ := State.inv_iff.1 hinv
    obtain ⟨hcnt, hlatch, -⟩ := htone.toneTmr.toneOk
    rw [State.toneTmr_cfg] at hcnt hlatch
    rw [State.toneTmr_armed, State.toneTmr_pact] at hlatch
    exact ⟨Nat.le_sub_of_add_le hcnt, hlatch⟩

/-! ### The ops one by one -/

/-- The word of `TONE.PITCH q` (30_encoding.md R96). -/
theorem encode_tonePitch (q : Half) : encode (.tonePitch q) = BitVec.ofNat 32 (0x30000000 + q.toNat) :=
  makeWord_eq_ofNat 0x30#8 0#8 q

theorem decode_eq_tonePitch_iff {p : Params} {port : Port} {w : Word} {q : Half} :
    decode p port w = .ok (.tonePitch q) ↔ port = .r ∧ q.toNat < 2 ^ p.pitchW ∧
      w = BitVec.ofNat 32 (0x30000000 + q.toNat) := by
  rw [decode_eq_ok_iff, encode_tonePitch, Instr.wellFormed, decide_eq_true_iff]
  exact ⟨fun ⟨hword, hfit, hport⟩ => ⟨hport.symm, hfit, hword.symm⟩,
    fun ⟨hport, hfit, hword⟩ => ⟨hword.symm, hfit, hport.symm⟩⟩

/-- Arming after a pitch was written records no violation (42_tone.md R166). -/
theorem State.arm_of_pitchSet {s : State} (h : s.pitchSet = true) :
    s.arm = { s with armed := true, tcnt := 0, pact := s.pitch } := by
  rw [State.arm, if_pos h]

/-- Arming with no pitch written since reset records `PitchUnset` (42_tone.md R166). -/
theorem State.arm_of_pitchUnset {s : State} (h : s.pitchSet = false) :
    s.arm = { s with armed := true, tcnt := 0, pact := s.pitch, viol := { s.viol with pitchUnset := true } } := by
  rw [State.arm, if_neg (ne_true_of_eq_false h)]
  rfl

theorem exec_toneOn_of_disarmed {s : State} (h : s.armed = false) :
    exec .toneOn s = .next (s.arm.answer .r none) := by
  rw [exec_eq, opEffect, if_neg (ne_true_of_eq_false h)]

theorem exec_toneOn_of_armed {s : State} (h : s.armed = true) :
    exec .toneOn s = .next (s.answer .r none) := by
  rw [exec_eq, opEffect, if_pos h]

/-- Settles O44: the op is one update of the pitch register and the mark, and the tick after it compares the
count with the effective pitch of the state it left. -/
theorem pitchWriteAndEffectivePitch : Obligations.PitchWriteAndEffectivePitch := by
  intro s q
  refine ⟨s.effPitch_eq, fun _ _ => decode_eq_tonePitch_iff, opEffect (.tonePitch q) s, exec_eq _ _, rfl,
    fun hlatch => ?_, fun hlive => ?_⟩
  · have hkept : (opEffect (.tonePitch q) s).effPitch = s.pact := State.effPitch_of_latch hlatch
    rw [hkept, State.effPitch_of_latch hlatch]
  · have hnew : (opEffect (.tonePitch q) s).effPitch = q.toNat % 2 ^ s.cfg.pitchW := State.effPitch_of_live hlive
    refine ⟨hnew, fun harmed hreached => ?_⟩
    have htoggle := State.toneTmr_of_effPitch_le (s := opEffect (.tonePitch q) s) harmed (hnew.trans_le hreached)
    exact congrArg State.drive htoggle

/-- Settles O45: each readback is its answer alone. -/
theorem toneReadbacks : Obligations.ToneReadbacks := by
  intro s
  refine ⟨encodedAs_encode (i := .toneGetpitch) rfl, encodedAs_encode (i := .toneStatus) rfl, rfl, ?_⟩
  rw [exec_eq, opEffect, statusResult_eq]
  rfl

/-- Settles O46: both ops are `State.disarm` and no result. -/
theorem toneInitAndOffDisarm : Obligations.ToneInitAndOffDisarm :=
  fun _ => ⟨encodedAs_encode (i := .toneInit) rfl, encodedAs_encode (i := .toneOff) rfl, rfl, rfl⟩

/-- Settles O47: disarmed, the op is `State.arm`, which looks at the mark; armed, it is its answer alone. -/
theorem toneOnArmsOnce : Obligations.ToneOnArmsOnce := by
  intro s
  refine ⟨encodedAs_encode (i := .toneOn) rfl, fun hoff hset => ?_, fun hoff hunset => ?_, exec_toneOn_of_armed⟩
  · rw [exec_toneOn_of_disarmed hoff, State.arm_of_pitchSet hset]
    rfl
  · rw [exec_toneOn_of_disarmed hoff, State.arm_of_pitchUnset hunset]
    rfl

end Sys2Proof.Machine
end

section
/-! PROOFS. The error conditions: what raises each, and that a refusal or a violation is recorded exactly
when its condition is raised (60_exceptions.md R181 to R183, R185; 70_reset_and_hazards.md R201). -/
namespace Sys2Proof.Machine

/-- Settles O15: the step is the listed event's, and `advance` leaves the state that event marks. -/
theorem partialResetIsRefused : Obligations.PartialResetIsRefused :=
  fun _ _ _ hl hp => ⟨step_of_pending_cons hl hp, advance_of_pending_cons hl hp⟩

/-! ### The classes of the conditions (60_exceptions.md R181) -/

theorem Viol.modelClass_condition (k : Viol) : k.condition.modelClass = .violation := by cases k <;> rfl

theorem Viol.condition_inj {j k : Viol} : j.condition = k.condition ↔ j = k := by
  cases j <;> cases k <;> decide

/-- The conditions that refusals report are of the refusal class. -/
theorem Refusal.modelClass_of_condition {r : Refusal} {c : ErrorCondition} (h : r.condition = some c) :
    c.modelClass = .refusal := by
  cases r with
  | reserved | wrongPort | partialReset => cases h; rfl
  | illegalConfig | notModelled => cases h

theorem Refusal.condition_ne_viol (r : Refusal) (k : Viol) : r.condition ≠ some k.condition := fun h => by
  have hclass := Refusal.modelClass_of_condition h
  rw [k.modelClass_condition] at hclass
  cases hclass

/-! ### What an op and an event raise -/

/-- Three ops raise a condition, each in the states the table lists (60_exceptions.md R181). -/
theorem raisedByOp_eq_some_iff {i : Instr} {s : State} {c : ErrorCondition} :
    raisedByOp i s = some c ↔
      ((∃ b, i = .fifoPush b) ∧ s.wcount = s.cfg.depth ∧ .overflow = c) ∨
      (i = .fifoPop ∧ s.rcount = 0 ∧ .popWhenEmpty = c) ∨
      (i = .toneOn ∧ s.armed = false ∧ s.pitchSet = false ∧ .pitchUnset = c) := by
  cases i with
  | fifoPush b => simp [raisedByOp, State.full]
  | fifoPop => simp [raisedByOp]
  | toneOn => simp [raisedByOp, and_assoc]
  | _ => simp [raisedByOp]

theorem modelClass_of_raisedByOp {i : Instr} {s : State} {c : ErrorCondition} (h : raisedByOp i s = some c) :
    c.modelClass ≠ .refusal := by
  obtain ⟨-, -, rfl⟩ | ⟨-, -, rfl⟩ | ⟨-, -, -, rfl⟩ := raisedByOp_eq_some_iff.mp h <;> decide

theorem raisedBy_op_ok {port : Port} {w : Word} {i : Instr} {s : State} (h : decode s.cfg port w = .ok i) :
    raisedBy (.op port w) s = raisedByOp i s := by
  simp only [raisedBy, h]

theorem raisedBy_op_error {port : Port} {w : Word} {d : DecodeReject} {s : State}
    (h : decode s.cfg port w = .error d) :
    raisedBy (.op port w) s = (refuseWord port w d).condition := by
  cases d <;> simp [raisedBy, h, refuseWord, Refusal.condition]

/-- A refused event raises the condition that its refusal reports. -/
theorem raisedBy_of_refused {e : Event} {s : State} {r : Refusal} (h : runEvent e s = .refused r) :
    r.condition = raisedBy e s := by
  obtain ⟨port, w, d, rfl, hd, rfl⟩ | ⟨d, rfl, rfl⟩ := runEvent_refused_cases h
  · exact (raisedBy_op_error hd).symm
  · rfl

/-- An event is refused only for its word or for a partial reset, and both report a condition. -/
theorem condition_of_refused {e : Event} {s : State} {r : Refusal} (h : runEvent e s = .refused r) :
    ∃ c, r.condition = some c := by
  obtain ⟨port, w, d, rfl, hd, rfl⟩ | ⟨d, rfl, rfl⟩ := runEvent_refused_cases h
  · cases d <;> exact ⟨_, rfl⟩
  · exact ⟨_, rfl⟩

/-- A condition is raised by the op that the event presents, or reported by its refusal. -/
theorem raisedBy_eq_some_iff {e : Event} {s : State} {c : ErrorCondition} :
    raisedBy e s = some c ↔
      (∃ i, spells e s i ∧ raisedByOp i s = some c) ∨
      ∃ r, runEvent e s = .refused r ∧ r.condition = some c := by
  constructor
  · intro h
    cases e with
    | op port w =>
      cases hd : decode s.cfg port w with
      | ok i => exact .inl ⟨i, ⟨port, w, rfl, hd⟩, raisedBy_op_ok hd ▸ h⟩
      | error d => exact .inr ⟨_, runEvent_op_error hd, raisedBy_op_error hd ▸ h⟩
    | partialReset d => exact .inr ⟨_, rfl, h⟩
    | syncW2R | syncR2W | pwmTb | toneTmr | reset => cases h
  · rintro (⟨i, ⟨port, w, rfl, hd⟩, h⟩ | ⟨r, hr, h⟩)
    · rw [raisedBy_op_ok hd, h]
    · rw [← raisedBy_of_refused hr, h]

theorem refused_iff_raisedBy {e : Event} {s : State} :
    (∃ r, runEvent e s = .refused r) ↔ ∃ c, raisedBy e s = some c ∧ c.modelClass = .refusal := by
  constructor
  · rintro ⟨r, hr⟩
    obtain ⟨c, hc⟩ := condition_of_refused hr
    exact ⟨c, raisedBy_of_refused hr ▸ hc, Refusal.modelClass_of_condition hc⟩
  · rintro ⟨c, hc, hclass⟩
    obtain ⟨i, -, hop⟩ | ⟨r, hr, -⟩ := raisedBy_eq_some_iff.mp hc
    · exact absurd hclass (modelClass_of_raisedByOp hop)
    · exact ⟨r, hr⟩

/-- Overflow is raised by a `FIFO.PUSH` into a full view alone: no refusal reports it. -/
theorem raisedBy_eq_overflow_iff {e : Event} {s : State} :
    raisedBy e s = some .overflow ↔ s.wcount = s.cfg.depth ∧ ∃ b, spells e s (.fifoPush b) := by
  constructor
  · intro h
    obtain ⟨i, hi, hop⟩ | ⟨r, -, hc⟩ := raisedBy_eq_some_iff.mp h
    · obtain ⟨⟨b, rfl⟩, hfull, -⟩ | ⟨-, -, hc⟩ | ⟨-, -, -, hc⟩ := raisedByOp_eq_some_iff.mp hop
      · exact ⟨hfull, b, hi⟩
      · cases hc
      · cases hc
    · cases Refusal.modelClass_of_condition hc
  · rintro ⟨hfull, b, hb⟩
    have hop : raisedByOp (.fifoPush b) s = some .overflow := if_pos (decide_eq_true hfull)
    exact raisedBy_eq_some_iff.mpr (.inl ⟨_, hb, hop⟩)

/-! ### The violation record (60_exceptions.md R183) -/

theorem ViolSet.has_insert_iff {v : ViolSet} {j k : Viol} :
    (v.insert j).has k = true ↔ v.has k = true ∨ j = k := by
  cases j <;> cases k <;> simp [ViolSet.insert, ViolSet.has]

/-- An op adds a violation kind exactly when that kind is the condition it raises. -/
theorem opEffect_viol_has_iff (i : Instr) (s : State) (k : Viol) :
    (opEffect i s).viol.has k = true ↔ s.viol.has k = true ∨ raisedByOp i s = some k.condition := by
  cases i with
  | fifoPush b =>
    have hkept : (opEffect (.fifoPush b) s).viol = s.viol := by simp only [opEffect]; split <;> simp
    cases k <;> simp [hkept, raisedByOp, Viol.condition]
  | fifoPop =>
    by_cases hempty : s.rcount = 0
    · have hraised : raisedByOp .fifoPop s = some (Viol.condition .popWhenEmpty) := if_pos hempty
      simp [opEffect, hempty, hraised, ViolSet.has_insert_iff, Viol.condition_inj]
    · simp [opEffect, raisedByOp, hempty]
  | toneOn =>
    by_cases harmed : s.armed = true
    · simp [opEffect, raisedByOp, harmed]
    by_cases hset : s.pitchSet = true
    · simp [opEffect, raisedByOp, harmed, hset]
    · have hraised : raisedByOp .toneOn s = some (Viol.condition .pitchUnset) :=
        if_pos (by simp [harmed, hset])
      simp [opEffect, harmed, hset, hraised, ViolSet.has_insert_iff, Viol.condition_inj]
  | _ => simp [opEffect, raisedByOp]

theorem afterEvent_viol_has_iff (e : Event) (s : State) (k : Viol) :
    (afterEvent e s).viol.has k = true ↔ s.viol.has k = true ∨ raisedBy e s = some k.condition := by
  cases e with
  | op port w =>
    cases hd : decode s.cfg port w with
    | ok i => rw [afterEvent_op_ok hd, raisedBy_op_ok hd]; exact opEffect_viol_has_iff i s k
    | error d => simp [afterEvent_op_error hd, raisedBy_op_error hd, Refusal.condition_ne_viol]
  | partialReset d =>
    have hother : raisedBy (.partialReset d) s ≠ some k.condition := (Refusal.partialReset d).condition_ne_viol k
    simp [hother]
  | _ => simp [raisedBy]

/-- Settles O53: each part is the `iff` on what raises a condition, or on what is recorded. -/
theorem errorConditionsAreRecorded : Obligations.ErrorConditionsAreRecorded :=
  fun e s => ⟨refused_iff_raisedBy, fun _ => raisedBy_of_refused, afterEvent_viol_has_iff e s,
    raisedBy_eq_overflow_iff⟩

end Sys2Proof.Machine
end
